-- ==== Sys2Proof/Word.lean ====
section
/-! DEFINITION. The byte and the bit string the specification works on (00_scope.md R9, R10). -/

namespace Sys2Proof

/-- A byte: 8 bits, an unsigned integer 0 to 255, bit 7 the most significant (R9). -/
abbrev Byte := BitVec 8

/-- A bit string: a finite sequence of bits, element 0 first (R10). -/
abbrev BitString := List Bool

end Sys2Proof
end

