-- ==== Sys2Proof/Machine/Bits.lean ====
section
/-! DEFINITION. Bit order and buffers: Unpack and Pack of 00_scope.md R10, the bits of a 16-bit
word, and the filling of a fixed buffer from a list. Shared by the decoder and the machine. -/

namespace Sys2Proof

/-- R10, one byte of `Unpack`: bit `j` of the result is `(b >> (7 - j)) & 1`. -/
def unpackByte (b : Byte) : BitString :=
  [b.getLsbD 7, b.getLsbD 6, b.getLsbD 5, b.getLsbD 4,
   b.getLsbD 3, b.getLsbD 2, b.getLsbD 1, b.getLsbD 0]

/-- R10 `Unpack`: 8 bits per byte, most significant bit first, leading zeros kept. -/
def unpack (bytes : List Byte) : BitString := bytes.flatMap unpackByte

/-- R10, one byte of `Pack`: the sum of `b[j] * 2^(7 - j)`. -/
def packByte (b0 b1 b2 b3 b4 b5 b6 b7 : Bool) : Byte :=
  BitVec.ofNat 8 (b0.toNat * 128 + b1.toNat * 64 + b2.toNat * 32 + b3.toNat * 16 +
    b4.toNat * 8 + b5.toNat * 4 + b6.toNat * 2 + b7.toNat)

/-- R10 `Pack`, defined by the spec for a length that is a multiple of 8 (its callers check that);
a shorter tail would have no byte and is left out. -/
def pack : BitString → List Byte
  | b0 :: b1 :: b2 :: b3 :: b4 :: b5 :: b6 :: b7 :: rest =>
      packByte b0 b1 b2 b3 b4 b5 b6 b7 :: pack rest
  | _ => []

/-- R243: the 16 bits of a word, `sw[j] = (w >> (15 - j)) & 1`. -/
def wordBits (w : BitVec 16) : BitString := (List.range 16).map fun j => w.getLsbD (15 - j)

/-- The first `n` elements of `l`, missing ones `d`. -/
def padTo {α : Type} (d : α) : Nat → List α → List α
  | 0, _ => []
  | n + 1, [] => d :: padTo d n []
  | n + 1, x :: xs => x :: padTo d n xs

theorem length_padTo {α : Type} (d : α) (n : Nat) (l : List α) : (padTo d n l).length = n := by
  induction n generalizing l with
  | zero => rfl
  | succ n ih => cases l <;> simp [padTo, ih]

/-- A fixed buffer filled from a list, missing entries `d`. -/
def bufferOf {α : Type} (d : α) (n : Nat) (l : List α) : Vector α n :=
  ⟨(padTo d n l).toArray, by simp [length_padTo]⟩

/-- `old` with its first entries replaced by those of `new`; entries past `new` keep their old
value and entries of `new` past `old` are dropped. -/
def overwriteList {α : Type} : List α → List α → List α
  | [], _ => []
  | x :: xs, [] => x :: xs
  | _ :: xs, y :: ys => y :: overwriteList xs ys

theorem length_overwriteList {α : Type} (old new : List α) :
    (overwriteList old new).length = old.length := by
  induction old generalizing new with
  | nil => rfl
  | cons x xs ih => cases new <;> simp [overwriteList, ih]

/-- `overwriteList` on a fixed buffer: `BUF[0..|new|-1] <- new`. -/
def overwrite {α : Type} {n : Nat} (old : Vector α n) (new : List α) : Vector α n :=
  ⟨(overwriteList old.toList new).toArray, by simp [length_overwriteList]⟩

end Sys2Proof
end

