-- ==== Sys2Proof/Syntax.lean ====
section
/-! DEFINITION. The host commands (30_encoding.md R96) and the command record that carries one
(R97). One constructor per row of spec/opcode_table.json. -/

namespace Sys2Proof

/-- The command record of R97: every field at the width of 10_state.md R25. A command reads only
the operands R96 lists for its opcode; the other fields are ignored. -/
structure Record where
  op     : Byte
  addr   : Byte
  val    : Byte
  len    : Byte
  wlen   : Byte
  wbuf   : Vector Byte 64
  freqw  : BitVec 24
  sync16 : BitVec 16
  plen   : BitVec 16
  pbits  : Vector Bool 496
  deriving DecidableEq, Repr

/-- The ten host commands of R96, each with the operands that rule lists. -/
inductive Instr where
  /-- `WR1 addr, value`: write single byte (R151). -/
  | wr1 (addr val : Byte)
  /-- `RD1 addr`: read single byte (R153). -/
  | rd1 (addr : Byte)
  /-- `WRB addr, bytes`: write burst (R155). `wbuf` holds `WBUF[0..WLEN-1]`, as far as the 64-byte
  buffer reaches: a `WLEN` above 64 can be presented and is refused at acceptance (R25, R123). -/
  | wrb (addr wlen : Byte) (wbuf : List Byte)
  /-- `RDB addr, length`: read burst (R157). -/
  | rdb (addr len : Byte)
  /-- `STB addr`: command strobe (R159). -/
  | stb (addr : Byte)
  /-- `INIT freqw, sync16`: construction-time set-up (R184). -/
  | init (freqw : BitVec 24) (sync16 : BitVec 16)
  /-- `CFGRX`: apply the RX profile (R187). -/
  | cfgrx
  /-- `CFGTX`: apply the TX profile (R190). -/
  | cfgtx
  /-- `RXPKT length`: receive one packet (R210). -/
  | rxpkt (len : Byte)
  /-- `TXPKT sync16, bits`: transmit one frame (R240). `pbits` holds `PBITS[0..PLEN-1]`, as far as
  the 496-bit buffer reaches: a longer `PLEN` is refused at acceptance (R25, R123). -/
  | txpkt (sync16 : BitVec 16) (plen : BitVec 16) (pbits : BitString)
  deriving DecidableEq, Repr

end Sys2Proof
end

