-- ==== Sys2Proof/WellFormed.lean ====
section
/-! DEFINITION. When a term of Instr is a command the record can carry: the operand list is as
long as its length field says, capped by the record's buffer (10_state.md R25, 30_encoding.md
R97). Operand legality (R99) is not this: an illegal operand is presented, accepted and refused by
Check (R123). -/

namespace Sys2Proof

/-- The payload of a WRB is `WBUF[0..WLEN-1]` within the 64-byte buffer. -/
def wbufFits (wlen : Byte) (wbuf : List Byte) : Bool := wbuf.length == min wlen.toNat 64

/-- The payload of a TXPKT is `PBITS[0..PLEN-1]` within the 496-bit buffer. -/
def pbitsFit (plen : BitVec 16) (pbits : BitString) : Bool := pbits.length == min plen.toNat 496

/-- The two length checks; every other operand is a bit vector of the operand's own width. -/
def Instr.wellFormed : Instr → Bool
  | .wr1 _ _ => true
  | .rd1 _ => true
  | .wrb _ wlen wbuf => wbufFits wlen wbuf
  | .rdb _ _ => true
  | .stb _ => true
  | .init _ _ => true
  | .cfgrx => true
  | .cfgtx => true
  | .rxpkt _ => true
  | .txpkt _ plen pbits => pbitsFit plen pbits

end Sys2Proof
end

