-- ==== Sys2Proof/Decode.lean ====
section
/-! DEFINITION. From a command record, or its bytes, to an instruction or a rejection by name, and
back (30_encoding.md R96 to R98). The order of the record's fields in bytes is the model's own
(log 11): the spec says the carriage of the record is not specified (R97). -/

namespace Sys2Proof

/-- R96: the opcode of each command. -/
abbrev opWr1 : Byte := 0x01
abbrev opRd1 : Byte := 0x02
abbrev opWrb : Byte := 0x03
abbrev opRdb : Byte := 0x04
abbrev opStb : Byte := 0x05
abbrev opInit : Byte := 0x10
abbrev opCfgrx : Byte := 0x11
abbrev opCfgtx : Byte := 0x12
abbrev opRxpkt : Byte := 0x20
abbrev opTxpkt : Byte := 0x21

/-- Why a record is no command. -/
inductive DecodeReject where
  /-- R98: an `OP` value not in the table of R96. -/
  | reservedOp (op : Byte)
  deriving DecidableEq, Repr

/-- R96: the opcode and the operands it selects; R98: every other opcode is reserved. -/
def decode (c : Record) : Except DecodeReject Instr :=
  if c.op = opWr1 then .ok (.wr1 c.addr c.val)
  else if c.op = opRd1 then .ok (.rd1 c.addr)
  else if c.op = opWrb then .ok (.wrb c.addr c.wlen (c.wbuf.toList.take c.wlen.toNat))
  else if c.op = opRdb then .ok (.rdb c.addr c.len)
  else if c.op = opStb then .ok (.stb c.addr)
  else if c.op = opInit then .ok (.init c.freqw c.sync16)
  else if c.op = opCfgrx then .ok .cfgrx
  else if c.op = opCfgtx then .ok .cfgtx
  else if c.op = opRxpkt then .ok (.rxpkt c.len)
  else if c.op = opTxpkt then .ok (.txpkt c.sync16 c.plen (c.pbits.toList.take c.plen.toNat))
  else .error (.reservedOp c.op)

/-- The number of bytes of the model's record layout (log 11). -/
def recordBytes : Nat := 138

/-- The record laid out as bytes, missing bytes 0, extra bytes ignored, so that any byte list is
some record: `OP, ADDR, VAL, LEN, WLEN, WBUF[0..63], FREQW (3), SYNC16 (2), PLEN (2),
PBITS (62, Pack order)`, wider fields high byte first as in R64. DESIGN CHOICE, log 11. -/
def recordOfBytes (l : List Byte) : Record where
  op := l.getD 0 0
  addr := l.getD 1 0
  val := l.getD 2 0
  len := l.getD 3 0
  wlen := l.getD 4 0
  wbuf := bufferOf 0 64 (l.drop 5)
  freqw := l.getD 69 0 ++ l.getD 70 0 ++ l.getD 71 0
  sync16 := l.getD 72 0 ++ l.getD 73 0
  plen := l.getD 74 0 ++ l.getD 75 0
  pbits := bufferOf false 496 (unpack (l.drop 76))

/-- The decoder on bytes: total on any bytes. -/
def decodeBytes (l : List Byte) : Except DecodeReject Instr := decode (recordOfBytes l)

/-- The `n` lowest bytes of a number, the least significant first. -/
def bytesOfNat : Nat → Nat → List Byte
  | 0, _ => []
  | n + 1, w => BitVec.ofNat 8 w :: bytesOfNat n (w / 256)

/-- The bytes of an instruction numbered as spec/opcode_table.json numbers its bits: bit 0 is the
least significant bit of the first byte, bits above `nbits` are 0. -/
def bytesOfTableWord (nbits w : Nat) : List Byte :=
  bytesOfNat recordBytes (w % 2 ^ nbits)

/-- What the decoder reads from an instruction whose table-numbered bits are `w`. -/
def decodeTableWord (nbits w : Nat) : Option Instr :=
  match decodeBytes (bytesOfTableWord nbits w) with
  | .ok i => some i
  | .error _ => none

/-- R96, the opcode column. -/
def Instr.opcode : Instr → Byte
  | .wr1 _ _ => opWr1
  | .rd1 _ => opRd1
  | .wrb _ _ _ => opWrb
  | .rdb _ _ => opRdb
  | .stb _ => opStb
  | .init _ _ => opInit
  | .cfgrx => opCfgrx
  | .cfgtx => opCfgtx
  | .rxpkt _ => opRxpkt
  | .txpkt _ _ _ => opTxpkt

/-- R96, the mnemonic column. -/
def Instr.mnemonic : Instr → String
  | .wr1 _ _ => "WR1"
  | .rd1 _ => "RD1"
  | .wrb _ _ _ => "WRB"
  | .rdb _ _ => "RDB"
  | .stb _ => "STB"
  | .init _ _ => "INIT"
  | .cfgrx => "CFGRX"
  | .cfgtx => "CFGTX"
  | .rxpkt _ => "RXPKT"
  | .txpkt _ _ _ => "TXPKT"

/-- A record with opcode `op` and every operand field 0. -/
def blankRecord (op : Byte) : Record where
  op := op
  addr := 0
  val := 0
  len := 0
  wlen := 0
  wbuf := bufferOf 0 64 []
  freqw := 0
  sync16 := 0
  plen := 0
  pbits := bufferOf false 496 []

/-- The record of an instruction: its opcode and operands (R96), the ignored fields 0 (R97). -/
def encode : Instr → Record
  | .wr1 addr val => { blankRecord opWr1 with addr := addr, val := val }
  | .rd1 addr => { blankRecord opRd1 with addr := addr }
  | .wrb addr wlen wbuf =>
      { blankRecord opWrb with addr := addr, wlen := wlen, wbuf := bufferOf 0 64 wbuf }
  | .rdb addr len => { blankRecord opRdb with addr := addr, len := len }
  | .stb addr => { blankRecord opStb with addr := addr }
  | .init freqw sync16 => { blankRecord opInit with freqw := freqw, sync16 := sync16 }
  | .cfgrx => blankRecord opCfgrx
  | .cfgtx => blankRecord opCfgtx
  | .rxpkt len => { blankRecord opRxpkt with len := len }
  | .txpkt sync16 plen pbits =>
      { blankRecord opTxpkt with sync16 := sync16, plen := plen, pbits := bufferOf false 496 pbits }

/-- The bytes of a record in the layout of `recordOfBytes`. -/
def bytesOfRecord (c : Record) : List Byte :=
  [c.op, c.addr, c.val, c.len, c.wlen] ++ c.wbuf.toList ++
  [c.freqw.extractLsb' 16 8, c.freqw.extractLsb' 8 8, c.freqw.extractLsb' 0 8,
   c.sync16.extractLsb' 8 8, c.sync16.extractLsb' 0 8,
   c.plen.extractLsb' 8 8, c.plen.extractLsb' 0 8] ++ pack c.pbits.toList

/-- The bytes of an instruction. -/
def encodeBytes (i : Instr) : List Byte := bytesOfRecord (encode i)

end Sys2Proof
end

