-- ==== Sys2Proof/Config.lean ====
section
/-! DEFINITION. The implementation parameters of 00_scope.md R8, the inputs of a step (R7, R12,
40_sequencer_control.md R132), and the free values: constants with no body, about which nothing
can be proved but that they exist. -/

namespace Sys2Proof

/-- R66: the 17 addresses and strobe opcodes the block uses, all parameters (92_eei_decisions.md
D7). -/
structure RegMap where
  sync1     : Byte
  sync0     : Byte
  pktlen    : Byte
  freq2     : Byte
  freq1     : Byte
  freq0     : Byte
  sres      : Byte
  srx       : Byte
  stx       : Byte
  sidle     : Byte
  sfrx      : Byte
  sftx      : Byte
  patable   : Byte
  txfifo    : Byte
  rxfifo    : Byte
  marcstate : Byte
  txbytes   : Byte
  deriving DecidableEq, Repr

/-- R8 `RDB_OVERFLOW` (R158). -/
inductive RdbOverflow where
  | refuse
  | wrap
  deriving DecidableEq, Repr

/-- R8 `FREQ_OVERFLOW` (R182); read by the host-side helper only. -/
inductive FreqOverflow where
  | reject
  | truncate
  | clamp
  deriving DecidableEq, Repr

/-- R8: a poll limit, a positive integer or `inf` (R129). -/
inductive PollLimit where
  | inf
  | polls (n : Nat)
  deriving DecidableEq, Repr

/-- R188: a configuration profile, an ordered list of (address, value) pairs. -/
abbrev Profile := List (Byte × Byte)

/-- The parameters of R8 the source does not fix. The fixed ones (masks, delays, mode bits, frame
cap) are constants beside the rules that use them. -/
structure Config where
  map            : RegMap
  profileRx      : Profile
  profileTx      : Profile
  patable        : Vector Byte 8
  xtalHz         : Nat
  freqOverflow   : FreqOverflow
  rdbOverflow    : RdbOverflow
  pollLimitEdge  : PollLimit
  pollLimitMarc  : PollLimit
  pollLimitDrain : PollLimit
  hasAbort       : Bool
  spiCanFail     : Bool
  wrbMax         : Nat
  baudHz         : Nat
  deriving DecidableEq, Repr

/-- R8: a finite poll limit is positive. -/
def PollLimit.wf : PollLimit → Bool
  | .inf => true
  | .polls n => 0 < n

/-- What R8 asks of the parameters: profiles of at most 255 pairs (R188), positive crystal and
limits, and a WRB limit no longer than the 64-byte buffer (R155, log 19). -/
def Config.wf (c : Config) : Bool :=
  decide (c.profileRx.length ≤ 255) && decide (c.profileTx.length ≤ 255) &&
  decide (0 < c.xtalHz) && c.pollLimitEdge.wf && c.pollLimitMarc.wf && c.pollLimitDrain.wf &&
  decide (c.wrbMax ≤ 64)

/-- The answer of `SpiXfer` (R62): the bytes the chip drives, or `fail`. -/
inductive SpiAnswer where
  | ok (miso : List Byte)
  | fail
  deriving DecidableEq, Repr, Inhabited

/-- The answer of `GdoSample` (R128): the level of the monitor line, or `fail`. -/
inductive GdoAnswer where
  | ok (level : Bool)
  | fail
  deriving DecidableEq, Repr, Inhabited

/-- The inputs of one step besides the presented command: `rst` (R320), `abort_req` (R130) and the
environment's answer to the one primitive the step may call (R132). -/
structure StepInput where
  rst      : Bool
  abortReq : Bool
  spi      : SpiAnswer
  gdo      : GdoAnswer
  deriving DecidableEq, Repr

/-! Free values at a step, applied to the state's step counter (log 5, 6). -/

/-- FREE VALUE: `abort_req` at a step the input script does not reach. -/
opaque Config.freeAbort : Nat → Bool
/-- FREE VALUE: the answer of SpiXfer at a step the input script does not reach. -/
opaque Config.freeSpi : Nat → SpiAnswer
/-- FREE VALUE: the answer of GdoSample at a step the input script does not reach. -/
opaque Config.freeGdo : Nat → GdoAnswer
/-- FREE VALUE: a received byte, by step and position, that an answer leaves out. -/
opaque Config.freeMiso : Nat → Nat → Byte
/-- FREE VALUE: the GDO0 level of a step whose answer may not be `fail`. -/
opaque Config.freeLevel : Nat → Bool

/-! Free parameters: those R8 marks OPEN or gives no default (log 3). -/

/-- FREE VALUE: `PROFILE_RX`, cut to the 255 pairs R8 allows where it is used. -/
opaque Config.freeProfileRx : Profile
/-- FREE VALUE: `PROFILE_TX`, cut likewise. -/
opaque Config.freeProfileTx : Profile
/-- FREE VALUE: `PATABLE_INIT` (R186). -/
opaque Config.freePatable : Vector Byte 8
/-- FREE VALUE: `POLL_LIMIT_EDGE`; `none` is `inf`, `some n` is the positive limit `n + 1`. -/
opaque Config.freeLimitEdge : Option Nat
/-- FREE VALUE: `POLL_LIMIT_MARC`, coded likewise. -/
opaque Config.freeLimitMarc : Option Nat
/-- FREE VALUE: `POLL_LIMIT_DRAIN`, coded likewise. -/
opaque Config.freeLimitDrain : Option Nat
/-- FREE VALUE: `HAS_ABORT`. -/
opaque Config.freeHasAbort : Bool
/-- FREE VALUE: `SPI_CAN_FAIL`. -/
opaque Config.freeSpiCanFail : Bool
/-- FREE VALUE: `BAUD_HZ`, read by no rule (R345). -/
opaque Config.freeBaudHz : Nat

/-- The limit coded by a free `Option Nat`. -/
def PollLimit.ofFree : Option Nat → PollLimit
  | none => .inf
  | some n => .polls (n + 1)

/-- R66, the "default" column. PRESUMED, log 2: the spec offers these values from general
knowledge (93_implementation_defined.md G1). -/
def RegMap.offered : RegMap where
  sync1 := 0x04
  sync0 := 0x05
  pktlen := 0x06
  freq2 := 0x0D
  freq1 := 0x0E
  freq0 := 0x0F
  sres := 0x30
  srx := 0x34
  stx := 0x35
  sidle := 0x36
  sfrx := 0x3A
  sftx := 0x3B
  patable := 0x3E
  txfifo := 0x3F
  rxfifo := 0x3F
  marcstate := 0xF5
  txbytes := 0xFA

/-- The parameters State.reset carries: R8's defaults where R8 offers one (PRESUMED, log 2), the
free constants elsewhere (log 3). Statements range over every `Config`, not over this one. -/
def Config.offered : Config where
  map := RegMap.offered
  profileRx := Config.freeProfileRx.take 255
  profileTx := Config.freeProfileTx.take 255
  patable := Config.freePatable
  xtalHz := 26000000
  freqOverflow := .reject
  rdbOverflow := .refuse
  pollLimitEdge := PollLimit.ofFree Config.freeLimitEdge
  pollLimitMarc := PollLimit.ofFree Config.freeLimitMarc
  pollLimitDrain := PollLimit.ofFree Config.freeLimitDrain
  hasAbort := Config.freeHasAbort
  spiCanFail := Config.freeSpiCanFail
  wrbMax := 64
  baudHz := Config.freeBaudHz

end Sys2Proof
end

