-- ==== Sys2Proof/Machine/State.lean ====
section
/-! DEFINITION. The state of the controller as plain data (10_state.md R20 to R34), the reasons a
step can stop, and the state after reset. -/

namespace Sys2Proof.Machine

/-- R22: the 34 fine states, SEQ's only values, in the order of the rule's table. -/
inductive FineState where
  | idle
  | prim
  | initStbSres | initWrFreq2 | initWrFreq1 | initWrFreq0 | initWrSync1 | initWrSync0
  | initWrbPatable | initStbSftx | initStbSfrx
  | cfgWrite
  | rxWrPktlen | rxStbSrx | rxWaitRise | rxWaitFall | rxRdbFifo | rxStbSidle | rxWaitIdle
  | rxStbSfrx
  | txFrame | txWrPktlen | txStbSidle | txWaitIdle | txStbSftx | txSettle1 | txWrbFifo | txStbStx
  | txPollDrain | txBackoff | txStbSftx2 | txStbSfrx | txSettle2 | txCheck
  deriving DecidableEq, Repr

/-- R23 `CFG_SEL`: which profile CFG_WRITE is applying (0 is `rx`, 1 is `tx`). -/
inductive ProfileSel where
  | rx
  | tx
  deriving DecidableEq, Repr

/-- R281: the error names. Codes 10 to 15 are never produced (93_implementation_defined.md U15). -/
inductive ErrCode where
  | none | illegal | range | align | oversize | transport | timeout | cancelled | txUnderflow
  | syncFmt
  deriving DecidableEq, Repr

/-- R125: the events of a run. `accept` carries the command as decoded, `acceptReserved` the
reserved opcode (log 20). -/
inductive Event where
  | accept (i : Instr)
  | acceptReserved (op : Byte)
  | csLow
  | csHigh
  | xfer (mosi miso : List Byte)
  | xferFail (mosi : List Byte)
  | gdo (level : Bool)
  | gdoFail
  | delay (ms : Nat)
  | done (err : ErrCode) (info : Byte)
  deriving DecidableEq, Repr

/-- The registers of R21 to R31, and after them the model's own fields (log 1, 4, 5, 9). -/
structure State where
  /-- R21 `CSN`: true is 1, released. -/
  csn      : Bool
  /-- R22 `SEQ`. -/
  seq      : FineState
  /-- R23 `CFG_SEL`. -/
  cfgSel   : ProfileSel
  /-- R23 `CFG_IDX`. -/
  cfgIdx   : BitVec 8
  /-- R24 `POLLCNT`, unbounded. -/
  pollCnt  : Nat
  /-- R25 `OP`. -/
  op       : Byte
  /-- R25 `ADDR`. -/
  addr     : Byte
  /-- R25 `VAL`. -/
  val      : Byte
  /-- R25 `LEN`. -/
  len      : Byte
  /-- R25 `WLEN`. -/
  wlen     : Byte
  /-- R25 `WBUF[0..63]`. -/
  wbuf     : Vector Byte 64
  /-- R25 `FREQW`. -/
  freqw    : BitVec 24
  /-- R25 `SYNC16`. -/
  sync16   : BitVec 16
  /-- R25 `PLEN`. -/
  plen     : BitVec 16
  /-- R25 `PBITS[0..495]`. -/
  pbits    : Vector Bool 496
  /-- R26 `FRAME[0..63]`. -/
  frame    : Vector Byte 64
  /-- R26 `FRAME_LEN`. -/
  frameLen : BitVec 7
  /-- R27 `RBUF[0..255]`. -/
  rbuf     : Vector Byte 256
  /-- R27 `RLEN`. -/
  rlen     : BitVec 9
  /-- R28 `RDATA`. -/
  rdata    : Byte
  /-- R28 `STAT0`. -/
  stat0    : Byte
  /-- R28 `STAT1`. -/
  stat1    : Byte
  /-- R28 `RX_BITS`. -/
  rxBits   : BitString
  /-- R28 `RX_NBITS`. -/
  rxNbits  : BitVec 12
  /-- R28 `TX_OK`. -/
  txOk     : Bool
  /-- R28 `RESIDUAL`. -/
  residual : BitVec 7
  /-- R29 `DONE`. -/
  done     : Bool
  /-- R29 `ERR`. -/
  err      : ErrCode
  /-- R29 `ERRINFO`. -/
  errInfo  : BitVec 8
  /-- R29 `ERRSEQ`: the code of a fine state. -/
  errSeq   : BitVec 6
  /-- The parameters of R8; no step writes them (log 1). -/
  cfg      : Config
  /-- What the host holds to the command port, in order; `none` is one idle step with no command
  presented (log 4). -/
  host     : List (Option Record)
  /-- The inputs of the coming steps (log 5). -/
  env      : List StepInput
  /-- The step counter the free values are applied to (log 5). -/
  tick     : Nat
  /-- R125: the events so far, newest first (log 9). -/
  trace    : List Event
  deriving DecidableEq, Repr

/-- Why a step stops. Each is raised only in a state no run reaches, where the precondition of a
rule does not hold; stopping there is safe (log 14). -/
inductive Fault where
  /-- Raised by `txn`: R126 requires `CSN = 1` before a transaction. Safe. -/
  | csnAsserted
  /-- Raised by `step`: SEQ is PRIM and OP names none of the five primitives (R160). Safe. -/
  | primNoPrimitive
  /-- Raised by WRB in PRIM and by TX_WRB_FIFO: the burst is longer than its 64-byte buffer (R25,
  R26). Safe. -/
  | burstPastBuffer
  /-- Raised by `rdb`: a burst-read sum exceeds 0xFF although RDB_OVERFLOW is refuse, where R158
  says no such sum is ever computed. Safe. -/
  | burstSumPastByte
  /-- Raised by CFG_WRITE: CFG_IDX exceeds the profile length (R23, R189). Safe. -/
  | cfgIdxPastProfile
  /-- Raised by TX_FRAME: R243 requires a payload of at most 496 bits, a multiple of 8. Safe. -/
  | framePayloadIllegal
  deriving DecidableEq, Repr

/-- No meaning for the instruction. -/
inductive Refusal where
  /-- Raised by `exec` for an instruction not modelled yet; no arm of this model raises it. Safe. -/
  | notModelled (mnemonic : String)
  deriving DecidableEq, Repr

/-- The outcome of a step. -/
abbrev Out := Host.Outcome State Fault Refusal

/-- R34 for SEQ, CSN, POLLCNT, DONE, ERR, ERRINFO, ERRSEQ and TX_OK; DESIGN CHOICE (log 7) for every
other register, which R34 leaves unspecified: zero. Nothing is presented, no input is scripted and
no event has happened. -/
def State.reset : State where
  csn := true
  seq := .idle
  cfgSel := .rx
  cfgIdx := 0
  pollCnt := 0
  op := 0
  addr := 0
  val := 0
  len := 0
  wlen := 0
  wbuf := Vector.replicate 64 0
  freqw := 0
  sync16 := 0
  plen := 0
  pbits := Vector.replicate 496 false
  frame := Vector.replicate 64 0
  frameLen := 0
  rbuf := Vector.replicate 256 0
  rlen := 0
  rdata := 0
  stat0 := 0
  stat1 := 0
  rxBits := []
  rxNbits := 0
  txOk := false
  residual := 0
  done := false
  err := .none
  errInfo := 0
  errSeq := 0
  cfg := Config.offered
  host := []
  env := []
  tick := 0
  trace := []

end Sys2Proof.Machine
end

