-- ==== Sys2Proof/Machine/Flags.lean ====
section
/-! DEFINITION. Status and error codes and the three chip-register fields the block interprets
(10_state.md R22, R29 to R31; 60_exceptions.md R281). -/

namespace Sys2Proof.Machine

/-- R22: the 6-bit codes, seen only in ERRSEQ. -/
def FineState.code : FineState → BitVec 6
  | .idle => 0x00
  | .prim => 0x01
  | .initStbSres => 0x08
  | .initWrFreq2 => 0x09
  | .initWrFreq1 => 0x0A
  | .initWrFreq0 => 0x0B
  | .initWrSync1 => 0x0C
  | .initWrSync0 => 0x0D
  | .initWrbPatable => 0x0E
  | .initStbSftx => 0x0F
  | .initStbSfrx => 0x10
  | .cfgWrite => 0x18
  | .rxWrPktlen => 0x20
  | .rxStbSrx => 0x21
  | .rxWaitRise => 0x22
  | .rxWaitFall => 0x23
  | .rxRdbFifo => 0x24
  | .rxStbSidle => 0x25
  | .rxWaitIdle => 0x26
  | .rxStbSfrx => 0x27
  | .txFrame => 0x30
  | .txWrPktlen => 0x31
  | .txStbSidle => 0x32
  | .txWaitIdle => 0x33
  | .txStbSftx => 0x34
  | .txSettle1 => 0x35
  | .txWrbFifo => 0x36
  | .txStbStx => 0x37
  | .txPollDrain => 0x38
  | .txBackoff => 0x39
  | .txStbSftx2 => 0x3A
  | .txStbSfrx => 0x3B
  | .txSettle2 => 0x3C
  | .txCheck => 0x3D

/-- The source's state names (R22's third column, R211, R241). -/
inductive SourceState where
  | idle | configuring | listening | waitingForEdgeRise | waitingForEdgeFall | draining
  | framing | waitForIdle | flushing | loading | transmitting
  deriving DecidableEq, Repr

/-- R22, R211, R241: the source state a fine state refines; `none` where the source names none.
Listening is the instant RX_STB_SRX completes and has no fine state of its own (R211). -/
def FineState.sourceState : FineState → Option SourceState
  | .idle => some .idle
  | .prim => none
  | .initStbSres | .initWrFreq2 | .initWrFreq1 | .initWrFreq0 | .initWrSync1 | .initWrSync0
  | .initWrbPatable | .initStbSftx | .initStbSfrx | .cfgWrite => none
  | .rxWrPktlen | .rxStbSrx => some .configuring
  | .rxWaitRise => some .waitingForEdgeRise
  | .rxWaitFall => some .waitingForEdgeFall
  | .rxRdbFifo => some .draining
  | .rxStbSidle | .rxWaitIdle | .rxStbSfrx => none
  | .txFrame | .txWrPktlen => some .framing
  | .txStbSidle | .txWaitIdle => some .waitForIdle
  | .txStbSftx | .txSettle1 => some .flushing
  | .txWrbFifo => some .loading
  | .txStbStx => some .transmitting
  | .txPollDrain | .txBackoff => some .draining
  | .txStbSftx2 | .txStbSfrx | .txSettle2 | .txCheck => none

/-- R281: the 4-bit code of an error. -/
def ErrCode.code : ErrCode → BitVec 4
  | .none => 0
  | .illegal => 1
  | .range => 2
  | .align => 3
  | .oversize => 4
  | .transport => 5
  | .timeout => 6
  | .cancelled => 7
  | .txUnderflow => 8
  | .syncFmt => 9

/-- R23: the value of `CFG_SEL`. -/
def ProfileSel.code : ProfileSel → BitVec 1
  | .rx => 0
  | .tx => 1

/-- R29: `BUSY` is 1 exactly when `SEQ != IDLE`; a function of SEQ, not a latch. -/
def State.busy (s : State) : Bool := decide (s.seq ≠ .idle)

/-- What the host may read at any time (R120): the status register (R29), the result registers
(R28), and RBUF with RLEN (R27). -/
structure HostView where
  busy     : Bool
  done     : Bool
  err      : BitVec 4
  errInfo  : BitVec 8
  errSeq   : BitVec 6
  rdata    : Byte
  stat0    : Byte
  stat1    : Byte
  rxBits   : BitString
  rxNbits  : BitVec 12
  txOk     : Bool
  residual : BitVec 7
  rbuf     : Vector Byte 256
  rlen     : BitVec 9
  deriving DecidableEq, Repr

/-- R120: the host's read access; reading changes nothing. -/
def hostView (s : State) : HostView where
  busy := s.busy
  done := s.done
  err := s.err.code
  errInfo := s.errInfo
  errSeq := s.errSeq
  rdata := s.rdata
  stat0 := s.stat0
  stat1 := s.stat1
  rxBits := s.rxBits
  rxNbits := s.rxNbits
  txOk := s.txOk
  residual := s.residual
  rbuf := s.rbuf
  rlen := s.rlen

/-- R8 `MARC_MASK`, `MARC_IDLE`, `TXBYTES_MASK`. -/
abbrev marcMask : Byte := 0x1F
abbrev marcIdleCode : Byte := 0x01
abbrev txbytesMask : Byte := 0x7F

/-- R31, R219: MARCSTATE reads IDLE, `(v & 0x1F) = 0x01`. -/
def marcIsIdle (v : Byte) : Bool := v &&& marcMask == marcIdleCode

/-- R31, R254: the pending byte count, `v & 0x7F`. -/
def pendingBytes (v : Byte) : Byte := v &&& txbytesMask

end Sys2Proof.Machine
end

