-- ==== Sys2Proof/Machine/Operands.lean ====
section
/-! DEFINITION. The wire frames (30_encoding.md R90 to R94, 41_spi_transactions.md R151 to R158),
the slices of the wide operands (20_memory.md R64), and the TX frame encoder (44_tx_sequence.md
R243). -/

namespace Sys2Proof.Machine

/-- R92: the access-mode bytes. -/
abbrev modeWrite : Byte := 0x00
abbrev modeRead : Byte := 0x80
abbrev modeWriteBurst : Byte := 0x40
abbrev modeReadBurst : Byte := 0xC0

/-- R151: `{ addr | 0x00, value }`. -/
def wr1Mosi (addr value : Byte) : List Byte := [addr ||| modeWrite, value]

/-- R153: `{ addr | 0x80, 0x00 }`. -/
def rd1Mosi (addr : Byte) : List Byte := [addr ||| modeRead, 0x00]

/-- R155: `{ addr | 0x40 } ++ bytes`. -/
def wrbMosi (addr : Byte) (bytes : List Byte) : List Byte := (addr ||| modeWriteBurst) :: bytes

/-- R159: `{ addr, 0x00 }`, no mode bits. -/
def stbMosi (addr : Byte) : List Byte := [addr, 0x00]

/-- R157: the integer `addr + 8*i`, before it is made a byte. -/
def burstSum (addr : Byte) (i : Nat) : Nat := addr.toNat + 8 * i

/-- R158 `Byte(a)`: `a mod 256`, which is `a` when `a <= 0xFF`; under `refuse` no larger sum is
computed (`rdb` stops first). -/
def burstByte (a : Nat) : Byte := BitVec.ofNat 8 a

/-- R157: `(addr + 8*i) | 0xC0` for `i` in `0 .. length`, the interval closed. -/
def rdbMosi (addr len : Byte) : List Byte :=
  (List.range (len.toNat + 1)).map fun i => burstByte (burstSum addr i) ||| modeReadBurst

/-- R158: some address byte of the burst leaves the byte range. -/
def burstOverflows (addr len : Byte) : Bool := decide (0xFF < burstSum addr len.toNat)

/-- R64: `FREQ2 = FREQW[23:16]`, `FREQ1 = FREQW[15:8]`, `FREQ0 = FREQW[7:0]`. -/
def freq2Byte (w : BitVec 24) : Byte := w.extractLsb' 16 8
def freq1Byte (w : BitVec 24) : Byte := w.extractLsb' 8 8
def freq0Byte (w : BitVec 24) : Byte := w.extractLsb' 0 8

/-- R64: `SYNC1 = SYNC16[15:8]`, `SYNC0 = SYNC16[7:0]`. -/
def sync1Byte (w : BitVec 16) : Byte := w.extractLsb' 8 8
def sync0Byte (w : BitVec 16) : Byte := w.extractLsb' 0 8

/-- R8 `FRAME_CAP_BITS` and `SYNC_BITS`; the greatest legal payload is their difference (R242). -/
abbrev frameCapBits : Nat := 512
abbrev syncBits : Nat := 16
abbrev maxPayloadBits : Nat := frameCapBits - syncBits

/-- R243 `P`: `floor((512 - 16 - L) / 8) * 8`. -/
def paddingBits (payloadBits : Nat) : Nat := (frameCapBits - syncBits - payloadBits) / 8 * 8

/-- R243 `pre`: 1 at even positions, 0 at odd ones. -/
def preamble (bits : Nat) : BitString := (List.range bits).map fun i => i % 2 == 0

/-- R243 `f`: padding, then the sync word, then the payload. -/
def frameBits (sync : BitVec 16) (payload : BitString) : BitString :=
  preamble (paddingBits payload.length) ++ wordBits sync ++ payload

/-- R243 `Frame(sync16, b)`. -/
def frameBytes (sync : BitVec 16) (payload : BitString) : List Byte := pack (frameBits sync payload)

/-- R242: the payload lengths the encoder is defined on. -/
def payloadLegal (plen : BitVec 16) : Bool :=
  decide (plen.toNat ≤ maxPayloadBits) && plen.toNat % 8 == 0

/-- R25: `WBUF[0..WLEN-1]`. -/
def State.writePayload (s : State) : List Byte := s.wbuf.toList.take s.wlen.toNat

/-- R25: `PBITS[0..PLEN-1]`. -/
def State.txPayload (s : State) : BitString := s.pbits.toList.take s.plen.toNat

/-- R252: `FRAME[0..FRAME_LEN-1]`. -/
def State.framePayload (s : State) : List Byte := s.frame.toList.take s.frameLen.toNat

/-- R93, R247: `zext_8(FRAME_LEN)`. -/
def State.frameLenByte (s : State) : Byte := s.frameLen.setWidth 8

end Sys2Proof.Machine
end

