-- ==== Sys2Proof/Machine/Ops.lean ====
section
/-! DEFINITION. The operations every command shares (40_sequencer_control.md): the inputs of a
step, completion and failure, acceptance, the transaction and its five kinds, the GDO0 sample, the
bounded poll and the delay. -/

namespace Sys2Proof.Machine

/-- An event joins the trace (R125). -/
def State.event (s : State) (e : Event) : State := { s with trace := e :: s.trace }

/-- SEQ takes its next value; nothing else changes. -/
def goto (q : FineState) (s : State) : Out := .next { s with seq := q }

/-! ### Inputs -/

/-- R132: the inputs of the coming step: the script's next entry, and past its end no reset and
free values (log 5). -/
def State.input (s : State) : StepInput :=
  match s.env with
  | i :: _ => i
  | [] =>
    { rst := false
      abortReq := Config.freeAbort s.tick
      spi := Config.freeSpi s.tick
      gdo := Config.freeGdo s.tick }

/-- R62: exactly `n` received bytes; a position the answer leaves out is a free byte (log 6). -/
def State.fit (s : State) (n : Nat) (miso : List Byte) : List Byte :=
  (List.range n).map fun k => miso.getD k (Config.freeMiso s.tick k)

/-- R62, R127: the answer of SpiXfer to `n` bytes; `none` is `fail`, possible only if SPI_CAN_FAIL
(log 6). -/
def State.spiAnswer (s : State) (n : Nat) : Option (List Byte) :=
  match s.input.spi with
  | .ok miso => some (s.fit n miso)
  | .fail => if s.cfg.spiCanFail then none else some (s.fit n [])

/-- R127, R128: the answer of GdoSample; `none` is `fail`, possible only if SPI_CAN_FAIL (log 6). -/
def State.gdoAnswer (s : State) : Option Bool :=
  match s.input.gdo with
  | .ok level => some level
  | .fail => if s.cfg.spiCanFail then none else some (Config.freeLevel s.tick)

/-- R130: `HAS_ABORT` and `abort_req = 1`. -/
def State.abortRequested (s : State) : Bool := s.cfg.hasAbort && s.input.abortReq

/-! ### Completion and failure: the block's exception entry -/

/-- R124 `Complete(e, info)`: saves ERR, ERRINFO and ERRSEQ, sets DONE, clears POLLCNT, SEQ <- IDLE. -/
def complete (e : ErrCode) (info : Byte) (s : State) : State :=
  { s with
    err := e
    errInfo := if e = .none then 0 else info
    errSeq := if e ≠ .none ∧ s.seq ≠ .idle then s.seq.code else 0
    done := true
    pollCnt := 0
    seq := .idle
    trace := .done e (if e = .none then 0 else info) :: s.trace }

/-- R290 `Fail(e, info)`: Complete with an error; no clean-up transaction (R291). -/
def fail (e : ErrCode) (info : Byte) (s : State) : Out := .next (complete e info s)

/-- `Complete(0, 0)`: the normal end. -/
def finishCommand (s : State) : Out := .next (complete .none 0 s)

/-! ### Acceptance: also the return from an error (R295) -/

/-- R122, first two lines: the status clears, POLLCNT clears, OP is latched. -/
def beginCommand (op : Byte) (e : Event) (s : State) : State :=
  { s with
    done := false
    err := .none
    errInfo := 0
    errSeq := 0
    pollCnt := 0
    op := op
    trace := e :: s.trace }

/-- R122, last lines: a bad verdict completes in IDLE, a good one enters `First(OP)`. -/
def admitCommand (verdict : Option (ErrCode × Byte)) (first : FineState) (s : State) : Out :=
  match verdict with
  | some (e, info) => fail e info s
  | none => goto first s

/-- R123 line 2: WRB longer than WRB_MAX. -/
def checkWriteLength (cfg : Config) (wlen : Byte) : Option (ErrCode × Byte) :=
  if cfg.wrbMax < wlen.toNat then some (.range, 1) else none

/-- R123 lines 3 and 4: a burst read that would leave the byte range, under `refuse`. -/
def checkBurstRead (cfg : Config) (addr len : Byte) : Option (ErrCode × Byte) :=
  if cfg.rdbOverflow = .refuse ∧ burstOverflows addr len = true then some (.range, 2) else none

/-- R123 lines 5 and 6: the size is tested before the multiple of 8. -/
def checkPayload (plen : BitVec 16) : Option (ErrCode × Byte) :=
  if maxPayloadBits < plen.toNat then some (.oversize, 0)
  else if plen.toNat % 8 ≠ 0 then some (.align, BitVec.ofNat 8 (plen.toNat % 8))
  else none

/-- R123 `Check`, lines 2 to 7 (line 1, a reserved opcode, is the decoder's rejection). `none` is
`good`. -/
def check (cfg : Config) : Instr → Option (ErrCode × Byte)
  | .wr1 _ _ => none
  | .rd1 _ => none
  | .wrb _ wlen _ => checkWriteLength cfg wlen
  | .rdb addr len => checkBurstRead cfg addr len
  | .stb _ => none
  | .init _ _ => none
  | .cfgrx => none
  | .cfgtx => none
  | .rxpkt len => checkBurstRead cfg cfg.map.rxfifo len
  | .txpkt _ plen _ => checkPayload plen

/-- R98, R122, R282: a reserved opcode is accepted, latches OP alone and completes with E_ILLEGAL. -/
def acceptReserved (op : Byte) (s : State) : State :=
  complete .illegal op (beginCommand op (.acceptReserved op) s)

/-- R121: the command port of a busy block: the presented command is neither taken nor lost nor
answered, so it changes nothing. -/
def heldOff (s : State) : Out := .next s

/-! ### The transaction -/

/-- R126: CSN falls. -/
def assertCs (s : State) : State := { s with csn := false, trace := .csLow :: s.trace }

/-- R126: CSN rises, on every path. -/
def releaseCs (s : State) : State := { s with csn := true, trace := .csHigh :: s.trace }

/-- R126 `Txn(mosi)`, with `k` the rest of the step. On `fail` the command ends with E_TRANSPORT and
`k` is not run, so that nothing it would have written is written (R127). -/
def txn (mosi : List Byte) (k : List Byte → State → Out) (s : State) : Out :=
  if s.csn then
    match s.spiAnswer mosi.length with
    | some miso => k miso (releaseCs ((assertCs s).event (.xfer mosi miso)))
    | none => fail .transport 0 (releaseCs ((assertCs s).event (.xferFail mosi)))
  else .fault .csnAsserted

/-- R151 `WR1(addr, value)`: the received bytes are ignored. -/
def wr1 (addr value : Byte) (k : State → Out) (s : State) : Out :=
  txn (wr1Mosi addr value) (fun _ t => k t) s

/-- R153 `RD1(addr)`: the second received byte. -/
def rd1 (addr : Byte) (k : Byte → State → Out) (s : State) : Out :=
  txn (rd1Mosi addr) (fun m t => k (m.getD 1 0) t) s

/-- R155 `WRB(addr, bytes)`: the received bytes are ignored. -/
def wrb (addr : Byte) (bytes : List Byte) (k : State → Out) (s : State) : Out :=
  txn (wrbMosi addr bytes) (fun _ t => k t) s

/-- R157 `RDB(addr, length)`: fills `RBUF[0..length]` and RLEN and returns all the bytes. -/
def rdb (addr len : Byte) (k : List Byte → State → Out) (s : State) : Out :=
  if s.cfg.rdbOverflow = .refuse ∧ burstOverflows addr len = true then .fault .burstSumPastByte
  else
    txn (rdbMosi addr len)
      (fun m t => k m { t with rbuf := overwrite t.rbuf m, rlen := BitVec.ofNat 9 (len.toNat + 1) }) s

/-- R159 `STB(addr)`: the two status bytes. -/
def stb (addr : Byte) (k : Byte → Byte → State → Out) (s : State) : Out :=
  txn (stbMosi addr) (fun m t => k (m.getD 0 0) (m.getD 1 0) t) s

/-! ### The steps of a sequence that only move on -/

/-- A `WR1` and then SEQ <- `next`. -/
def wr1Then (addr value : Byte) (next : FineState) (s : State) : Out := wr1 addr value (goto next) s

/-- A `WRB` and then SEQ <- `next`. -/
def wrbThen (addr : Byte) (bytes : List Byte) (next : FineState) (s : State) : Out :=
  wrb addr bytes (goto next) s

/-- A `STB`, its bytes dropped (R28), and then SEQ <- `next`. -/
def stbThen (addr : Byte) (next : FineState) (s : State) : Out := stb addr (fun _ _ t => goto next t) s

/-- A `STB` that enters a wait loop from outside: POLLCNT <- 0 (R24, R213, R218, R248, R253). -/
def stbThenWait (addr : Byte) (next : FineState) (s : State) : Out :=
  stb addr (fun _ _ t => goto next { t with pollCnt := 0 }) s

/-! ### The GDO0 sample, the poll, the delay -/

/-- R128 `GdoSample()`, with `k` the rest of the step; `fail` ends the command (R127). -/
def gdoSample (k : Bool → State → Out) (s : State) : Out :=
  match s.gdoAnswer with
  | some level => k level (s.event (.gdo level))
  | none => fail .transport 0 (s.event .gdoFail)

/-- R129: the four kinds of wait loop. -/
inductive PollKind where
  | edgeRise | edgeFall | marc | drain
  deriving DecidableEq, Repr

/-- R129: the kind code, ERRINFO of a time-out or a cancel. -/
def PollKind.code : PollKind → Byte
  | .edgeRise => 1
  | .edgeFall => 2
  | .marc => 3
  | .drain => 4

/-- R129: the limit parameter of a kind. -/
def PollKind.limit (cfg : Config) : PollKind → PollLimit
  | .edgeRise => cfg.pollLimitEdge
  | .edgeFall => cfg.pollLimitEdge
  | .marc => cfg.pollLimitMarc
  | .drain => cfg.pollLimitDrain

/-- R129: `L != inf and POLLCNT >= L`. -/
def limitReached : PollLimit → Nat → Bool
  | .inf, _ => false
  | .polls n, count => decide (n ≤ count)

/-- R129 `PollStep(k, L, poll, satisfied, next)`: abort first, then the limit, then the poll (R294);
an unsatisfied poll counts and goes to `stay` (the state itself, or TX_BACKOFF for kind 4). -/
def pollStep {α : Type} (k : PollKind) (poll : (α → State → Out) → State → Out)
    (satisfied : α → Bool) (next stay : FineState) (s : State) : Out :=
  if s.abortRequested then fail .cancelled k.code s
  else if limitReached (k.limit s.cfg) s.pollCnt then fail .timeout k.code s
  else
    poll (fun v t =>
      if satisfied v then goto next { t with pollCnt := 0 }
      else goto stay { t with pollCnt := t.pollCnt + 1 }) s

/-- R8 `T_SETTLE_MS` and `T_BACKOFF_MS`. -/
abbrev settleMs : Nat := 50
abbrev backoffMs : Nat := 100

/-- R131 `Delay(ms)` and the transition that follows it: an event and SEQ, nothing else. -/
def delayThen (ms : Nat) (next : FineState) (s : State) : Out := goto next (s.event (.delay ms))

end Sys2Proof.Machine
end

