-- ==== Sys2Proof/Machine/Primitives.lean ====
section
/-! DEFINITION. The five SPI transactions as host commands (41_spi_transactions.md R151 to R160):
acceptance in IDLE, the one transaction in PRIM. In PRIM a command acts when OP names it (R160);
anywhere else it is held off (40_sequencer_control.md R121). The operands are the command's at
acceptance and the latches' afterwards (10_state.md R25). -/

namespace Sys2Proof.Machine

/-- R151, R160: WR1. -/
def execWr1 (addr val : Byte) (s : State) : Out :=
  match s.seq with
  | .idle =>
    admitCommand (check s.cfg (.wr1 addr val)) .prim
      { beginCommand opWr1 (.accept (.wr1 addr val)) s with addr := addr, val := val }
  | .prim => if s.op = opWr1 then wr1 s.addr s.val finishCommand s else heldOff s
  | _ => heldOff s

/-- R153, R160: RD1. -/
def execRd1 (addr : Byte) (s : State) : Out :=
  match s.seq with
  | .idle =>
    admitCommand (check s.cfg (.rd1 addr)) .prim
      { beginCommand opRd1 (.accept (.rd1 addr)) s with addr := addr }
  | .prim =>
    if s.op = opRd1 then rd1 s.addr (fun v t => finishCommand { t with rdata := v }) s
    else heldOff s
  | _ => heldOff s

/-- R155, R160: WRB. `WBUF[0..WLEN-1]` is latched, the entries past it keep their value (log 13). -/
def execWrb (addr wlen : Byte) (wbuf : List Byte) (s : State) : Out :=
  match s.seq with
  | .idle =>
    admitCommand (check s.cfg (.wrb addr wlen wbuf)) .prim
      { beginCommand opWrb (.accept (.wrb addr wlen wbuf)) s with
        addr := addr
        wlen := wlen
        wbuf := overwrite s.wbuf wbuf }
  | .prim =>
    if s.op = opWrb then
      if s.wlen.toNat ≤ 64 then wrb s.addr s.writePayload finishCommand s
      else .fault .burstPastBuffer
    else heldOff s
  | _ => heldOff s

/-- R157, R160: RDB. -/
def execRdb (addr len : Byte) (s : State) : Out :=
  match s.seq with
  | .idle =>
    admitCommand (check s.cfg (.rdb addr len)) .prim
      { beginCommand opRdb (.accept (.rdb addr len)) s with addr := addr, len := len }
  | .prim =>
    if s.op = opRdb then rdb s.addr s.len (fun _ t => finishCommand t) s else heldOff s
  | _ => heldOff s

/-- R159, R160: STB. -/
def execStb (addr : Byte) (s : State) : Out :=
  match s.seq with
  | .idle =>
    admitCommand (check s.cfg (.stb addr)) .prim
      { beginCommand opStb (.accept (.stb addr)) s with addr := addr }
  | .prim =>
    if s.op = opStb then
      stb s.addr (fun b0 b1 t => finishCommand { t with stat0 := b0, stat1 := b1 }) s
    else heldOff s
  | _ => heldOff s

end Sys2Proof.Machine
end

