-- ==== Sys2Proof/Machine/Receive.lean ====
section
/-! DEFINITION. RXPKT: the RX sequence, frame decoder and bit-unpacker (43_rx_sequence.md). -/

namespace Sys2Proof.Machine

/-- R216: `m[1..LEN]` unpacked; `m[0]`, the status byte, is discarded. -/
def decodePacket (len : Byte) (m : List Byte) : BitString := unpack ((m.drop 1).take len.toNat)

/-- R216, the step of RX_RDB_FIFO. -/
def rxReadFifo (s : State) : Out :=
  rdb s.cfg.map.rxfifo s.len
    (fun m t =>
      goto .rxStbSidle
        { t with rxBits := decodePacket t.len m, rxNbits := BitVec.ofNat 12 (8 * t.len.toNat) }) s

/-- R210 to R220: RXPKT. -/
def execRxpkt (len : Byte) (s : State) : Out :=
  match s.seq with
  | .idle =>
    admitCommand (check s.cfg (.rxpkt len)) .rxWrPktlen
      { beginCommand opRxpkt (.accept (.rxpkt len)) s with len := len }
  | .rxWrPktlen => wr1Then s.cfg.map.pktlen s.len .rxStbSrx s
  | .rxStbSrx => stbThenWait s.cfg.map.srx .rxWaitRise s
  | .rxWaitRise => pollStep .edgeRise gdoSample (fun g => g) .rxWaitFall .rxWaitRise s
  | .rxWaitFall => pollStep .edgeFall gdoSample (fun g => !g) .rxRdbFifo .rxWaitFall s
  | .rxRdbFifo => rxReadFifo s
  | .rxStbSidle => stbThenWait s.cfg.map.sidle .rxWaitIdle s
  | .rxWaitIdle => pollStep .marc (rd1 s.cfg.map.marcstate) marcIsIdle .rxStbSfrx .rxWaitIdle s
  | .rxStbSfrx => stb s.cfg.map.sfrx (fun _ _ t => finishCommand t) s
  | _ => heldOff s

end Sys2Proof.Machine
end

