-- ==== Sys2Proof/Machine/Setup.lean ====
section
/-! DEFINITION. INIT, CFGRX and CFGTX (42_config_init.md R184 to R190). -/

namespace Sys2Proof.Machine

/-- R184, R185: INIT, nine transactions. -/
def execInit (freqw : BitVec 24) (sync16 : BitVec 16) (s : State) : Out :=
  match s.seq with
  | .idle =>
    admitCommand (check s.cfg (.init freqw sync16)) .initStbSres
      { beginCommand opInit (.accept (.init freqw sync16)) s with freqw := freqw, sync16 := sync16 }
  | .initStbSres => stbThen s.cfg.map.sres .initWrFreq2 s
  | .initWrFreq2 => wr1Then s.cfg.map.freq2 (freq2Byte s.freqw) .initWrFreq1 s
  | .initWrFreq1 => wr1Then s.cfg.map.freq1 (freq1Byte s.freqw) .initWrFreq0 s
  | .initWrFreq0 => wr1Then s.cfg.map.freq0 (freq0Byte s.freqw) .initWrSync1 s
  | .initWrSync1 => wr1Then s.cfg.map.sync1 (sync1Byte s.sync16) .initWrSync0 s
  | .initWrSync0 => wr1Then s.cfg.map.sync0 (sync0Byte s.sync16) .initWrbPatable s
  | .initWrbPatable => wrbThen s.cfg.map.patable s.cfg.patable.toList .initStbSftx s
  | .initStbSftx => stbThen s.cfg.map.sftx .initStbSfrx s
  | .initStbSfrx => stb s.cfg.map.sfrx (fun _ _ t => finishCommand t) s
  | _ => heldOff s

/-- R189: the profile CFG_SEL names. -/
def State.profile (s : State) : Profile :=
  match s.cfgSel with
  | .rx => s.cfg.profileRx
  | .tx => s.cfg.profileTx

/-- R189, the step of CFG_WRITE: one pair, or completion past the last. -/
def cfgWriteStep (s : State) : Out :=
  match s.profile[s.cfgIdx.toNat]? with
  | some (a, v) => wr1 a v (fun t => .next { t with cfgIdx := t.cfgIdx + 1 }) s
  | none =>
    if s.cfgIdx.toNat = s.profile.length then finishCommand s else .fault .cfgIdxPastProfile

/-- R187: CFGRX. -/
def execCfgrx (s : State) : Out :=
  match s.seq with
  | .idle =>
    admitCommand (check s.cfg .cfgrx) .cfgWrite
      { beginCommand opCfgrx (.accept .cfgrx) s with cfgSel := .rx, cfgIdx := 0 }
  | .cfgWrite => if s.cfgSel = .rx then cfgWriteStep s else heldOff s
  | _ => heldOff s

/-- R190: CFGTX. -/
def execCfgtx (s : State) : Out :=
  match s.seq with
  | .idle =>
    admitCommand (check s.cfg .cfgtx) .cfgWrite
      { beginCommand opCfgtx (.accept .cfgtx) s with cfgSel := .tx, cfgIdx := 0 }
  | .cfgWrite => if s.cfgSel = .tx then cfgWriteStep s else heldOff s
  | _ => heldOff s

end Sys2Proof.Machine
end

