-- ==== Sys2Proof/Machine/Transmit.lean ====
section
/-! DEFINITION. TXPKT: the TX sequence, frame encoder and FIFO writer (44_tx_sequence.md). -/

namespace Sys2Proof.Machine

/-- R245, the step of TX_FRAME: no external action. -/
def txBuildFrame (s : State) : Out :=
  if payloadLegal s.plen then
    goto .txWrPktlen
      { s with frame := overwrite s.frame (frameBytes s.sync16 s.txPayload), frameLen := 64 }
  else .fault .framePayloadIllegal

/-- R252, the step of TX_WRB_FIFO: the whole frame in one burst. -/
def txLoadFifo (s : State) : Out :=
  if s.frameLen.toNat ≤ 64 then wrbThen s.cfg.map.txfifo s.framePayload .txStbStx s
  else .fault .burstPastBuffer

/-- R259: what TX_CHECK does with the TXBYTES value it read. -/
def txVerdict (v : Byte) (t : State) : Out :=
  let r := pendingBytes v
  let u := { t with residual := r.setWidth 7, txOk := r == 0 }
  if r = 0 then finishCommand u else fail .txUnderflow r u

/-- R240 to R259: TXPKT. TX_OK is cleared when it is accepted (R28, R122), refused or not.
`PBITS[0..PLEN-1]` is latched, the entries past it keep their value (log 13). -/
def execTxpkt (sync16 plen : BitVec 16) (pbits : BitString) (s : State) : Out :=
  match s.seq with
  | .idle =>
    admitCommand (check s.cfg (.txpkt sync16 plen pbits)) .txFrame
      { beginCommand opTxpkt (.accept (.txpkt sync16 plen pbits)) s with
        sync16 := sync16
        plen := plen
        pbits := overwrite s.pbits pbits
        txOk := false }
  | .txFrame => txBuildFrame s
  | .txWrPktlen => wr1Then s.cfg.map.pktlen s.frameLenByte .txStbSidle s
  | .txStbSidle => stbThenWait s.cfg.map.sidle .txWaitIdle s
  | .txWaitIdle => pollStep .marc (rd1 s.cfg.map.marcstate) marcIsIdle .txStbSftx .txWaitIdle s
  | .txStbSftx => stbThen s.cfg.map.sftx .txSettle1 s
  | .txSettle1 => delayThen settleMs .txWrbFifo s
  | .txWrbFifo => txLoadFifo s
  | .txStbStx => stbThenWait s.cfg.map.stx .txPollDrain s
  | .txPollDrain =>
    pollStep .drain (rd1 s.cfg.map.txbytes) (fun v => pendingBytes v == 0) .txStbSftx2 .txBackoff s
  | .txBackoff => delayThen backoffMs .txPollDrain s
  | .txStbSftx2 => stbThen s.cfg.map.sftx .txStbSfrx s
  | .txStbSfrx => stbThen s.cfg.map.sfrx .txSettle2 s
  | .txSettle2 => delayThen settleMs .txCheck s
  | .txCheck => rd1 s.cfg.map.txbytes txVerdict s
  | _ => heldOff s

end Sys2Proof.Machine
end

