-- ==== Sys2Proof/Machine/Dispatch.lean ====
section
/-! DEFINITION. The meaning of every command: its part of one step of the controller. -/

namespace Sys2Proof.Machine

def exec (i : Instr) (s : State) : Host.Outcome State Fault Refusal :=
  match i with
  -- the five SPI transactions (41_spi_transactions.md)
  | .wr1 addr val => Sys2Proof.Machine.execWr1 addr val s
  | .rd1 addr => Sys2Proof.Machine.execRd1 addr s
  | .wrb addr wlen wbuf => Sys2Proof.Machine.execWrb addr wlen wbuf s
  | .rdb addr len => Sys2Proof.Machine.execRdb addr len s
  | .stb addr => Sys2Proof.Machine.execStb addr s
  -- set-up and profiles (42_config_init.md)
  | .init freqw sync16 => Sys2Proof.Machine.execInit freqw sync16 s
  | .cfgrx => Sys2Proof.Machine.execCfgrx s
  | .cfgtx => Sys2Proof.Machine.execCfgtx s
  -- packets (43_rx_sequence.md, 44_tx_sequence.md)
  | .rxpkt len => Sys2Proof.Machine.execRxpkt len s
  | .txpkt sync16 plen pbits => Sys2Proof.Machine.execTxpkt sync16 plen pbits s

end Sys2Proof.Machine
end

