-- ==== Sys2Proof/Machine/Sequencer.lean ====
section
/-! DEFINITION. What the step needs around a meaning: the running command (40_sequencer_control.md
R132, R160), the passing of the inputs, reset (70_reset_and_hazards.md R320, R323), and the placing
of a command at the port. -/

namespace Sys2Proof.Machine

/-- R160: the primitive OP names, with the latched operands. -/
def State.runningPrimitive (s : State) : Option Instr :=
  if s.op = opWr1 then some (.wr1 s.addr s.val)
  else if s.op = opRd1 then some (.rd1 s.addr)
  else if s.op = opWrb then some (.wrb s.addr s.wlen s.writePayload)
  else if s.op = opRdb then some (.rdb s.addr s.len)
  else if s.op = opStb then some (.stb s.addr)
  else none

/-- R132: the command whose fine state SEQ holds, with the latched operands; `none` in IDLE, and in
PRIM when OP names no primitive. -/
def State.running (s : State) : Option Instr :=
  match s.seq with
  | .idle => none
  | .prim => s.runningPrimitive
  | .initStbSres | .initWrFreq2 | .initWrFreq1 | .initWrFreq0 | .initWrSync1 | .initWrSync0
  | .initWrbPatable | .initStbSftx | .initStbSfrx => some (.init s.freqw s.sync16)
  | .cfgWrite =>
    match s.cfgSel with
    | .rx => some .cfgrx
    | .tx => some .cfgtx
  | .rxWrPktlen | .rxStbSrx | .rxWaitRise | .rxWaitFall | .rxRdbFifo | .rxStbSidle | .rxWaitIdle
  | .rxStbSfrx => some (.rxpkt s.len)
  | .txFrame | .txWrPktlen | .txStbSidle | .txWaitIdle | .txStbSftx | .txSettle1 | .txWrbFifo
  | .txStbStx | .txPollDrain | .txBackoff | .txStbSftx2 | .txStbSfrx | .txSettle2 | .txCheck =>
    some (.txpkt s.sync16 s.plen s.txPayload)

/-- A step is over: its inputs are gone (log 5). -/
def advance (s : State) : State := { s with env := s.env.tail, tick := s.tick + 1 }

/-- `advance` on the outcome of a meaning. -/
def advanceOut : Out → Out
  | .next t => .next (advance t)
  | .fault r => .fault r
  | .refused r => .refused r

/-- R320, R323: with `rst` asserted the block goes to the state of R34, with no event; the
parameters, what is outside the block and the events so far stay (log 8). -/
def onReset (s : State) : State :=
  { State.reset with cfg := s.cfg, host := s.host, env := s.env, tick := s.tick, trace := s.trace }

/-- The inputs with `rst` released at the next step. -/
def releaseReset : List StepInput → List StepInput
  | [] => []
  | i :: rest => { i with rst := false } :: rest

/-- The command of the record is presented, the block idle and `rst` released, so that the next
step takes it (log 12). -/
def presentRecord (c : Record) (s : State) : State :=
  { s with seq := .idle, host := some c :: s.host, env := releaseReset s.env }

/-- R100: a program is a list of commands, each presented after the one before. -/
def program (cmds : List Instr) : List (Option Record) := cmds.map fun i => some (encode i)

end Sys2Proof.Machine
end

