-- ==== Sys2Proof/Machine/Step.lean ====
section
/-! DEFINITION. One step of the controller (00_scope.md R13, 40_sequencer_control.md R121, R122,
R132): reset, the acceptance of a presented command, or one fine state of the running command. -/

namespace Sys2Proof.Machine

/-- R121, R122 in IDLE: nothing presented changes nothing; a reserved opcode completes with
E_ILLEGAL; a command is accepted by its meaning. -/
def idleStep (s : State) : Out :=
  match s.host with
  | [] => .next s
  | none :: rest => .next { s with host := rest }
  | some c :: rest =>
    match decode c with
    | .ok i => exec i { s with host := rest }
    | .error (.reservedOp op) => .next (acceptReserved op { s with host := rest })

/-- R132: the fine state SEQ names, for the command it belongs to. -/
def busyStep (s : State) : Out :=
  match s.running with
  | some i => exec i s
  | none => .fault .primNoPrimitive

/-- R132 `Step`, `rst` first (R323). -/
def step (s : State) : Host.Outcome State Fault Refusal :=
  if s.input.rst then .next (advance (onReset s))
  else if s.seq = .idle then advanceOut (idleStep s)
  else advanceOut (busyStep s)

/-- The instruction whose table-numbered bits are `w` is presented at the command port of the idle
block, so that the next step accepts it (log 12). -/
def State.withFetchWord (s : State) (nbits w : Nat) : State :=
  presentRecord (recordOfBytes (bytesOfTableWord nbits w)) s

end Sys2Proof.Machine
end

