-- ==== Sys2Proof/Machine/HostHelpers.lean ====
section
/-! DEFINITION. The host-side helpers of 42_config_init.md R181 to R183, pure functions the host
evaluates before it issues a command (00_scope.md R4), and the pseudo-commands of 30_encoding.md
R101. No hardware state. -/

namespace Sys2Proof.Machine

/-- The error a helper reports on the host (R281): code and detail; no command is issued. -/
structure HostError where
  err  : ErrCode
  info : Byte
  deriving DecidableEq, Repr

/-- R181 `RoundHalfEven`: the integer nearest to `num / den`, of two equally near the even one. -/
def roundHalfEven (num den : Nat) : Nat :=
  if 2 * (num % den) < den then num / den
  else if den < 2 * (num % den) then num / den + 1
  else if num / den % 2 = 0 then num / den
  else num / den + 1

/-- R182 `Range24(w)`. -/
def range24 (mode : FreqOverflow) (w : Int) : Except HostError (BitVec 24) :=
  if 0 ≤ w ∧ w ≤ 0xFFFFFF then .ok (BitVec.ofInt 24 w)
  else
    match mode with
    | .reject => .error { err := .range, info := 3 }
    | .truncate => .ok (BitVec.ofInt 24 w)
    | .clamp => .ok (if w < 0 then 0 else 0xFFFFFF)

/-- R181 `FreqWord(frequency_hz, offset)`, the frequency the exact rational `hzNum / hzDen` (log 18);
the offset is in word units and added after rounding (90_conflicts.md C3). -/
def freqWord (cfg : Config) (hzNum hzDen : Nat) (offset : Int) : Except HostError (BitVec 24) :=
  range24 cfg.freqOverflow (roundHalfEven (hzNum * 65536) (hzDen * cfg.xtalHz) + offset)

/-- The value of a hexadecimal digit, either letter case (R183). -/
def hexDigit (c : Char) : Option Nat :=
  let n := c.toNat
  if 48 ≤ n ∧ n ≤ 57 then some (n - 48)
  else if 97 ≤ n ∧ n ≤ 102 then some (n - 87)
  else if 65 ≤ n ∧ n ≤ 70 then some (n - 55)
  else none

/-- R183 `ParseSync4(s)`: exactly four hexadecimal digits, or E_SYNCFMT. -/
def parseSync4 (s : List Char) : Except HostError (BitVec 16) :=
  match s with
  | [c0, c1, c2, c3] =>
    match hexDigit c0, hexDigit c1, hexDigit c2, hexDigit c3 with
    | some d0, some d1, some d2, some d3 =>
      .ok (BitVec.ofNat 16 (d0 * 4096 + d1 * 256 + d2 * 16 + d3))
    | _, _, _, _ => .error { err := .syncFmt, info := 0 }
  | _ => .error { err := .syncFmt, info := 0 }

/-- R101: the pseudo-commands. -/
inductive Pseudo where
  | sres | srx | stx | sidle | sfrx | sftx
  | setupRX
  | receiveData (length : Byte)
  deriving DecidableEq, Repr

/-- R101: the expansion of each. -/
def Pseudo.expand (map : RegMap) : Pseudo → Instr
  | .sres => .stb map.sres
  | .srx => .stb map.srx
  | .stx => .stb map.stx
  | .sidle => .stb map.sidle
  | .sfrx => .stb map.sfrx
  | .sftx => .stb map.sftx
  | .setupRX => .cfgrx
  | .receiveData length => .rxpkt length

end Sys2Proof.Machine
end

