-- ==== Sys2Proof/Machine/Trace.lean ====
section
/-! DEFINITION. What is read off a trace (40_sequencer_control.md R125): the counts of
70_reset_and_hazards.md R347 and the shape of a trace. Traces are newest first.

DESIGN CHOICE, log 22: R347 counts the normal path only, and R127 leaves open how many bytes of a
failed exchange reached the chip. A failed exchange counts here as one transaction with all its
bytes, and a failed sample as one sample: the counts are of what the block attempted. -/

namespace Sys2Proof.Machine

/-- The frame of each transaction, newest first; of a failed one the frame attempted (DESIGN CHOICE,
log 22). -/
def sentFrames : List Event → List (List Byte)
  | [] => []
  | .xfer mosi _ :: t => mosi :: sentFrames t
  | .xferFail mosi :: t => mosi :: sentFrames t
  | .accept _ :: t => sentFrames t
  | .acceptReserved _ :: t => sentFrames t
  | .csLow :: t => sentFrames t
  | .csHigh :: t => sentFrames t
  | .gdo _ :: t => sentFrames t
  | .gdoFail :: t => sentFrames t
  | .delay _ :: t => sentFrames t
  | .done _ _ :: t => sentFrames t

/-- R347: transactions, the failed ones among them (DESIGN CHOICE, log 22). -/
def transactionCount (trace : List Event) : Nat := (sentFrames trace).length

/-- R347: bytes exchanged each way; a failed exchange counts with every byte of its frame (DESIGN
CHOICE, log 22; R127 says the number that reached the chip is unknown). -/
def byteCount (trace : List Event) : Nat := ((sentFrames trace).map List.length).sum

/-- R347: one event's GDO0 samples; a failed sample counts as one (DESIGN CHOICE, log 22). -/
def Event.samples : Event → Nat
  | .gdo _ => 1
  | .gdoFail => 1
  | _ => 0

/-- R347: GDO0 samples, the failed ones among them (DESIGN CHOICE, log 22). -/
def sampleCount (trace : List Event) : Nat := (trace.map Event.samples).sum

/-- R347: one event's delay. -/
def Event.delayMs : Event → Nat
  | .delay ms => ms
  | _ => 0

/-- R347: delay milliseconds. -/
def delayTotal (trace : List Event) : Nat := (trace.map Event.delayMs).sum

/-- R13: the external actions of a step: a transaction, a sample, a delay, an acceptance. A
transaction counts by its exchange, not by its bracket. -/
def Event.isAction : Event → Bool
  | .accept _ => true
  | .acceptReserved _ => true
  | .xfer _ _ => true
  | .xferFail _ => true
  | .gdo _ => true
  | .gdoFail => true
  | .delay _ => true
  | .csLow => false
  | .csHigh => false
  | .done _ _ => false

/-- R126: every CsLow is followed by one exchange and then by CsHigh, and no exchange and no CsHigh
stands outside such a bracket; an exchange receives as many bytes as it sends, at least one (R62). -/
def wellBracketed : List Event → Bool
  | [] => true
  | .csHigh :: .xfer mosi miso :: .csLow :: t =>
      decide (mosi.length = miso.length) && decide (0 < mosi.length) && wellBracketed t
  | .csHigh :: .xferFail mosi :: .csLow :: t => decide (0 < mosi.length) && wellBracketed t
  | .csHigh :: _ => false
  | .csLow :: _ => false
  | .xfer _ _ :: _ => false
  | .xferFail _ :: _ => false
  | .accept _ :: t => wellBracketed t
  | .acceptReserved _ :: t => wellBracketed t
  | .gdo _ :: t => wellBracketed t
  | .gdoFail :: t => wellBracketed t
  | .delay _ :: t => wellBracketed t
  | .done _ _ :: t => wellBracketed t

/-- A command has been accepted and is not done. -/
def commandOpen : List Event → Bool
  | [] => false
  | .accept _ :: _ => true
  | .acceptReserved _ :: _ => true
  | .done _ _ :: _ => false
  | .csLow :: t => commandOpen t
  | .csHigh :: t => commandOpen t
  | .xfer _ _ :: t => commandOpen t
  | .xferFail _ :: t => commandOpen t
  | .gdo _ :: t => commandOpen t
  | .gdoFail :: t => commandOpen t
  | .delay _ :: t => commandOpen t

/-- R121: acceptances and completions alternate, and every other event lies inside a command. -/
def commandsAlternate : List Event → Bool
  | [] => true
  | .accept _ :: t => !commandOpen t && commandsAlternate t
  | .acceptReserved _ :: t => !commandOpen t && commandsAlternate t
  | .done _ _ :: t => commandOpen t && commandsAlternate t
  | .csLow :: t => commandOpen t && commandsAlternate t
  | .csHigh :: t => commandOpen t && commandsAlternate t
  | .xfer _ _ :: t => commandOpen t && commandsAlternate t
  | .xferFail _ :: t => commandOpen t && commandsAlternate t
  | .gdo _ :: t => commandOpen t && commandsAlternate t
  | .gdoFail :: t => commandOpen t && commandsAlternate t
  | .delay _ :: t => commandOpen t && commandsAlternate t

end Sys2Proof.Machine
end

