-- ==== Sys2Proof/Safety.lean ====
section
/-! DEFINITION. What counts as a safe state and a good run, in the terms claims use. -/

namespace Sys2Proof.Safety

open Sys2Proof.Machine

/-- 30_encoding.md R96, R97: the records have the same opcode and, where it is one of the ten, the
same operands of those the table lists for it; the other fields may differ. -/
structure OperandsAgree (c c' : Record) : Prop where
  op : c'.op = c.op
  wr1 : c.op = 0x01 → c'.addr = c.addr ∧ c'.val = c.val
  rd1 : c.op = 0x02 → c'.addr = c.addr
  wrb : c.op = 0x03 → c'.addr = c.addr ∧ c'.wlen = c.wlen ∧
    ∀ (k : Nat) (h : k < 64), k < c.wlen.toNat → c'.wbuf[k] = c.wbuf[k]
  rdb : c.op = 0x04 → c'.addr = c.addr ∧ c'.len = c.len
  stb : c.op = 0x05 → c'.addr = c.addr
  init : c.op = 0x10 → c'.freqw = c.freqw ∧ c'.sync16 = c.sync16
  rxpkt : c.op = 0x20 → c'.len = c.len
  txpkt : c.op = 0x21 → c'.sync16 = c.sync16 ∧ c'.plen = c.plen ∧
    ∀ (k : Nat) (h : k < 496), k < c.plen.toNat → c'.pbits[k] = c.pbits[k]

/-- The opcodes a command may have while SEQ holds a fine state (40_sequencer_control.md R122:
`First(OP)` and the sequence that follows); in IDLE, OP is whatever was latched last. -/
def seqFits (q : FineState) (op : Byte) : Bool :=
  match q with
  | .idle => true
  | .prim => op == opWr1 || op == opRd1 || op == opWrb || op == opRdb || op == opStb
  | .initStbSres | .initWrFreq2 | .initWrFreq1 | .initWrFreq0 | .initWrSync1 | .initWrSync0
  | .initWrbPatable | .initStbSftx | .initStbSfrx => op == opInit
  | .cfgWrite => op == opCfgrx || op == opCfgtx
  | .rxWrPktlen | .rxStbSrx | .rxWaitRise | .rxWaitFall | .rxRdbFifo | .rxStbSidle | .rxWaitIdle
  | .rxStbSfrx => op == opRxpkt
  | .txFrame | .txWrPktlen | .txStbSidle | .txWaitIdle | .txStbSftx | .txSettle1 | .txWrbFifo
  | .txStbStx | .txPollDrain | .txBackoff | .txStbSftx2 | .txStbSfrx | .txSettle2 | .txCheck =>
    op == opTxpkt

/-- R24, R129: the wait loop SEQ is in, TX_BACKOFF lying inside the drain loop. -/
def loopOf : FineState → Option PollKind
  | .rxWaitRise => some .edgeRise
  | .rxWaitFall => some .edgeFall
  | .rxWaitIdle => some .marc
  | .txWaitIdle => some .marc
  | .txPollDrain => some .drain
  | .txBackoff => some .drain
  | _ => none

/-- R129: outside a wait loop the count is 0; inside, it has not passed a finite limit. -/
def pollCountOk (s : State) : Bool :=
  match loopOf s.seq with
  | none => s.pollCnt == 0
  | some k =>
    match k.limit s.cfg with
    | .inf => true
    | .polls n => decide (s.pollCnt ≤ n)

/-- The TX states in which the frame is built (44_tx_sequence.md R245). -/
def frameBuilt : FineState → Bool
  | .txWrPktlen | .txStbSidle | .txWaitIdle | .txStbSftx | .txSettle1 | .txWrbFifo | .txStbStx
  | .txPollDrain | .txBackoff | .txStbSftx2 | .txStbSfrx | .txSettle2 | .txCheck => true
  | _ => false

/-- The states a run can be in, as far as the rules' preconditions and the registers' meanings go.
Statements that could fail only in other states have it as a premise. -/
structure SafeState (s : State) : Prop where
  /-- 00_scope.md R8: the parameters are legal. -/
  cfg_wf : s.cfg.wf = true
  /-- 10_state.md R21: between steps CSN is 1. -/
  csn_released : s.csn = true
  /-- R122: SEQ belongs to the command in OP. -/
  seq_fits : seqFits s.seq s.op = true
  /-- R123 line 2, R25: PRIM sees a WLEN within the limit. -/
  wrb_fits : s.seq = .prim → s.op = opWrb → checkWriteLength s.cfg s.wlen = none
  /-- R123 line 3, R158: PRIM sees a burst read whose sums fit a byte, under refuse. -/
  rdb_fits : s.seq = .prim → s.op = opRdb → checkBurstRead s.cfg s.addr s.len = none
  /-- R123 line 4: a running RXPKT has such a burst read. -/
  rx_fits : s.seq ≠ .idle → s.op = opRxpkt → checkBurstRead s.cfg s.cfg.map.rxfifo s.len = none
  /-- R123 lines 5 and 6: a running TXPKT has a legal payload. -/
  tx_fits : s.seq ≠ .idle → s.op = opTxpkt → checkPayload s.plen = none
  /-- R189, R122: CFG_SEL is the command's, and CFG_IDX has not passed the profile. -/
  cfg_sel : s.seq = .cfgWrite → s.op = (match s.cfgSel with | .rx => opCfgrx | .tx => opCfgtx)
  cfg_idx : s.seq = .cfgWrite → s.cfgIdx.toNat ≤ s.profile.length
  /-- R244, R245: after TX_FRAME the buffer holds the 64-byte frame of the latched operands. -/
  frame_ready : frameBuilt s.seq = true →
    s.frameLen = 64 ∧ s.frame.toList = frameBytes s.sync16 s.txPayload
  /-- R24, R129: the poll count. -/
  poll_count : pollCountOk s = true
  /-- R29, R122, R280: while a command runs there is no completion and no error. -/
  busy_clean : s.seq ≠ .idle → s.done = false ∧ s.err = .none
  /-- R29: ERRINFO and ERRSEQ are 0 when ERR is. -/
  err_clean : s.err = .none → s.errInfo = 0 ∧ s.errSeq = 0
  /-- R281: code 9 is never written to ERR by the hardware. -/
  err_hardware : s.err ≠ .syncFmt
  /-- R28: RX_NBITS is the length of RX_BITS, a whole number of bytes. -/
  rx_bits : s.rxNbits.toNat = s.rxBits.length ∧ s.rxBits.length % 8 = 0
  /-- R27: at most 256 bytes. -/
  rlen_fits : s.rlen.toNat ≤ 256
  /-- R260: TX_OK = 1 goes with RESIDUAL = 0, and with ERR = 0 while TXPKT is the last command. -/
  tx_ok : s.txOk = true → s.residual = 0 ∧ (s.op = opTxpkt → s.err = .none)
  /-- R28, R240: TX_OK is 0 while a TXPKT runs. -/
  tx_running : s.seq ≠ .idle → s.op = opTxpkt → s.txOk = false

/-- `n` steps, stopping at the first fault or refusal. -/
def runSteps : Nat → State → Out
  | 0, s => .next s
  | n + 1, s =>
    match step s with
    | .next t => runSteps n t
    | .fault r => .fault r
    | .refused r => .refused r

/-- No `rst` in the input script; past its end none is asserted (log 5). -/
def noReset (s : State) : Prop := ∀ i ∈ s.env, i.rst = false

/-- An input with no `rst`, no `abort_req` that counts, and no failure that counts (R127, R130). -/
def calmInput (cfg : Config) (i : StepInput) : Prop :=
  i.rst = false ∧ (cfg.hasAbort = true → i.abortReq = false) ∧
  (cfg.spiCanFail = true → i.spi ≠ .fail)

/-- The first `n` scripted inputs assert no `rst` and give no transport failure. -/
def goodInputs (n : Nat) (s : State) : Prop :=
  n ≤ s.env.length ∧
  ∀ i ∈ s.env.take n, i.rst = false ∧ (s.cfg.spiCanFail = true → i.spi ≠ .fail)

/-- A finite limit's number; 0 for `inf`, where no bound holds. -/
def limitNat : PollLimit → Nat
  | .inf => 0
  | .polls n => n

/-- R129: all three limits are finite. -/
def limitsFinite (cfg : Config) : Prop :=
  cfg.pollLimitEdge ≠ .inf ∧ cfg.pollLimitMarc ≠ .inf ∧ cfg.pollLimitDrain ≠ .inf

/-- A bound on the steps a running command still takes when the limits are finite (R129, R133): one
for each fine state ahead, and for each poll a wait loop may still make. -/
def remaining (s : State) : Nat :=
  let e := limitNat s.cfg.pollLimitEdge
  let m := limitNat s.cfg.pollLimitMarc
  let d := limitNat s.cfg.pollLimitDrain
  match s.seq with
  | .idle => 0
  | .prim => 1
  | .initStbSres => 9
  | .initWrFreq2 => 8
  | .initWrFreq1 => 7
  | .initWrFreq0 => 6
  | .initWrSync1 => 5
  | .initWrSync0 => 4
  | .initWrbPatable => 3
  | .initStbSftx => 2
  | .initStbSfrx => 1
  | .cfgWrite => s.profile.length - s.cfgIdx.toNat + 1
  | .rxWrPktlen => 2 * e + m + 8
  | .rxStbSrx => 2 * e + m + 7
  | .rxWaitRise => (e - s.pollCnt) + e + m + 6
  | .rxWaitFall => (e - s.pollCnt) + m + 5
  | .rxRdbFifo => m + 4
  | .rxStbSidle => m + 3
  | .rxWaitIdle => (m - s.pollCnt) + 2
  | .rxStbSfrx => 1
  | .txFrame => m + 2 * d + 13
  | .txWrPktlen => m + 2 * d + 12
  | .txStbSidle => m + 2 * d + 11
  | .txWaitIdle => (m - s.pollCnt) + 2 * d + 10
  | .txStbSftx => 2 * d + 9
  | .txSettle1 => 2 * d + 8
  | .txWrbFifo => 2 * d + 7
  | .txStbStx => 2 * d + 6
  | .txPollDrain => 2 * (d - s.pollCnt) + 5
  | .txBackoff => 2 * (d - s.pollCnt) + 6
  | .txStbSftx2 => 4
  | .txStbSfrx => 3
  | .txSettle2 => 2
  | .txCheck => 1

/-- The fine states whose step makes one transaction (10_state.md R22); CFG_WRITE makes none once
every pair of the profile is written (R189). -/
def transacts (s : State) : Bool :=
  match s.seq with
  | .idle | .rxWaitRise | .rxWaitFall | .txFrame | .txSettle1 | .txBackoff | .txSettle2 => false
  | .cfgWrite => decide (s.cfgIdx.toNat < s.profile.length)
  | _ => true

/-- The frame of the one transaction a fine state's step makes (10_state.md R22; each by the rule
that table names): for PRIM the transaction OP names, for CFG_WRITE the pair CFG_IDX names, and
empty where `transacts` is false. -/
def frameSent (s : State) : List Byte :=
  match s.seq with
  | .idle | .rxWaitRise | .rxWaitFall | .txFrame | .txSettle1 | .txBackoff | .txSettle2 => []
  | .prim =>
    if s.op = opWr1 then wr1Mosi s.addr s.val
    else if s.op = opRd1 then rd1Mosi s.addr
    else if s.op = opWrb then wrbMosi s.addr s.writePayload
    else if s.op = opRdb then rdbMosi s.addr s.len
    else if s.op = opStb then stbMosi s.addr
    else []
  | .initStbSres => stbMosi s.cfg.map.sres
  | .initWrFreq2 => wr1Mosi s.cfg.map.freq2 (freq2Byte s.freqw)
  | .initWrFreq1 => wr1Mosi s.cfg.map.freq1 (freq1Byte s.freqw)
  | .initWrFreq0 => wr1Mosi s.cfg.map.freq0 (freq0Byte s.freqw)
  | .initWrSync1 => wr1Mosi s.cfg.map.sync1 (sync1Byte s.sync16)
  | .initWrSync0 => wr1Mosi s.cfg.map.sync0 (sync0Byte s.sync16)
  | .initWrbPatable => wrbMosi s.cfg.map.patable s.cfg.patable.toList
  | .initStbSftx => stbMosi s.cfg.map.sftx
  | .initStbSfrx => stbMosi s.cfg.map.sfrx
  | .cfgWrite =>
    match s.profile[s.cfgIdx.toNat]? with
    | some (a, v) => wr1Mosi a v
    | none => []
  | .rxWrPktlen => wr1Mosi s.cfg.map.pktlen s.len
  | .rxStbSrx => stbMosi s.cfg.map.srx
  | .rxRdbFifo => rdbMosi s.cfg.map.rxfifo s.len
  | .rxStbSidle => stbMosi s.cfg.map.sidle
  | .rxWaitIdle => rd1Mosi s.cfg.map.marcstate
  | .rxStbSfrx => stbMosi s.cfg.map.sfrx
  | .txWrPktlen => wr1Mosi s.cfg.map.pktlen s.frameLenByte
  | .txStbSidle => stbMosi s.cfg.map.sidle
  | .txWaitIdle => rd1Mosi s.cfg.map.marcstate
  | .txStbSftx => stbMosi s.cfg.map.sftx
  | .txWrbFifo => wrbMosi s.cfg.map.txfifo s.framePayload
  | .txStbStx => stbMosi s.cfg.map.stx
  | .txPollDrain => rd1Mosi s.cfg.map.txbytes
  | .txStbSftx2 => stbMosi s.cfg.map.sftx
  | .txStbSfrx => stbMosi s.cfg.map.sfrx
  | .txCheck => rd1Mosi s.cfg.map.txbytes

/-- A wait state's step reaches its poll (R129): no abort, limit not reached. -/
def polls (k : PollKind) (s : State) : Bool :=
  !s.abortRequested && !limitReached (k.limit s.cfg) s.pollCnt

/-- The chip answered the transaction `mosi` with `miso`: the three events of R126, newest first, and
CSN released again. -/
def afterXfer (mosi miso : List Byte) (s : State) : State :=
  { s with csn := true, trace := .csHigh :: .xfer mosi miso :: .csLow :: s.trace }

/-- The transaction `mosi` failed (R127). -/
def afterXferFail (mosi : List Byte) (s : State) : State :=
  { s with csn := true, trace := .csHigh :: .xferFail mosi :: .csLow :: s.trace }

/-- R124 for a normal end, register by register. -/
def ended (s : State) : State :=
  { s with
    err := .none
    errInfo := 0
    errSeq := 0
    done := true
    pollCnt := 0
    seq := .idle
    trace := .done .none 0 :: s.trace }

/-- R124, R290 for an error raised in the fine state of code `code`. -/
def endedWith (e : ErrCode) (info : Byte) (code : BitVec 6) (s : State) : State :=
  { s with
    err := e
    errInfo := info
    errSeq := code
    done := true
    pollCnt := 0
    seq := .idle
    trace := .done e info :: s.trace }

/-- R122: the status cleared, OP latched, the acceptance in the trace. -/
def accepted (i : Instr) (s : State) : State :=
  { s with
    done := false
    err := .none
    errInfo := 0
    errSeq := 0
    pollCnt := 0
    op := i.opcode
    trace := .accept i :: s.trace }

end Sys2Proof.Safety
end

