-- ==== Sys2Proof/Certificates/Slice0/Obligations.lean ====
section
/-! DEFINITION. The statements for the provers. Each docstring names the rules of spec/ it rests on
and every clause that is the model's own choice. -/

open Sys2Proof Sys2Proof.Machine Sys2Proof.Safety

/-! ### Encoding -/

/-- 10_state.md R34: the registers whose reset value the spec gives. (The other registers' reset
values are the model's choice, log 7, and are not stated.) -/
def Obligations.ResetStateValues : Prop :=
  State.reset.seq = .idle ∧ State.reset.csn = true ∧ State.reset.pollCnt = 0 ∧
  State.reset.busy = false ∧ State.reset.done = false ∧ State.reset.err.code = 0 ∧
  State.reset.errInfo = 0 ∧ State.reset.errSeq = 0 ∧ State.reset.txOk = false

/-- 30_encoding.md R96, R98: a record decodes exactly when its opcode is one of the ten, and then to
a command of that opcode; every other opcode is rejected by name. -/
def Obligations.DecodesExactlyTheTenOpcodes : Prop :=
  ∀ c : Record,
    (∀ i, decode c = .ok i → i.opcode = c.op) ∧
    (c.op.toNat ∈ [0x01, 0x02, 0x03, 0x04, 0x05, 0x10, 0x11, 0x12, 0x20, 0x21] →
      ∃ i, decode c = .ok i) ∧
    (c.op.toNat ∉ [0x01, 0x02, 0x03, 0x04, 0x05, 0x10, 0x11, 0x12, 0x20, 0x21] →
      decode c = .error (.reservedOp c.op))

/-- R96, R97: no operand is dropped between an instruction and its record. -/
def Obligations.DecodeOfEncode : Prop :=
  ∀ i : Instr, i.wellFormed = true → decode (encode i) = .ok i

/-- The byte layout of the record, which is the model's own (log 11), loses no field of any record,
and the decoder on bytes gives back every well-formed instruction. -/
def Obligations.RecordSurvivesItsBytes : Prop :=
  (∀ c : Record, (bytesOfRecord c).length = recordBytes ∧ recordOfBytes (bytesOfRecord c) = c) ∧
  (∀ i : Instr, i.wellFormed = true → decodeBytes (encodeBytes i) = .ok i)

/-- R97, R25: whatever the bytes, what the decoder accepts is well formed and decodes back from its
own record; and only the operands R96 lists for the opcode are read: every record with the same
opcode and the same listed operands decodes to the same command. -/
def Obligations.DecodedIsWellFormed : Prop :=
  (∀ (l : List Byte) (i : Instr), decodeBytes l = .ok i →
    i.wellFormed = true ∧ decode (encode i) = .ok i) ∧
  (∀ (c c' : Record) (i : Instr), decode c = .ok i → OperandsAgree c c' → decode c' = .ok i)

/-- R96: the ten opcodes as table words, all operands zero, and one word with operands (the places
of the operands above the opcode are the model's own, log 11). -/
def Obligations.DecodesTableWords : Prop :=
  decodeTableWord 8 0b00000001 = some (.wr1 0 0) ∧
  decodeTableWord 8 0b00000010 = some (.rd1 0) ∧
  decodeTableWord 8 0b00000011 = some (.wrb 0 0 []) ∧
  decodeTableWord 8 0b00000100 = some (.rdb 0 0) ∧
  decodeTableWord 8 0b00000101 = some (.stb 0) ∧
  decodeTableWord 8 0b00010000 = some (.init 0 0) ∧
  decodeTableWord 8 0b00010001 = some .cfgrx ∧
  decodeTableWord 8 0b00010010 = some .cfgtx ∧
  decodeTableWord 8 0b00100000 = some (.rxpkt 0) ∧
  decodeTableWord 8 0b00100001 = some (.txpkt 0 0 []) ∧
  decodeTableWord 8 0b00000110 = none ∧
  decodeTableWord 24 0x400601 = some (.wr1 0x06 0x40)

/-! ### The step around a meaning -/

/-- 40_sequencer_control.md R121, R122: in IDLE, with no reset, the presented record leaves the port
and the step is the decoded command's; the inputs of the step are used up (log 5). -/
def Obligations.StepAcceptsThePresented : Prop :=
  ∀ (s : State) (c : Record) (rest : List (Option Record)) (i : Instr),
    s.input.rst = false → s.seq = .idle → s.host = some c :: rest → decode c = .ok i →
    step s = advanceOut (exec i { s with host := rest })

/-- R132: in any other fine state, with no reset, the step is the running command's. -/
def Obligations.StepRunsTheRunning : Prop :=
  ∀ (s : State) (i : Instr),
    s.input.rst = false → s.running = some i → step s = advanceOut (exec i s)

/-- The state `withFetchWord` places a word in runs that word's instruction in its very next step
(log 12). -/
def Obligations.FetchWordRunsNext : Prop :=
  ∀ (s : State) (nbits w : Nat) (i : Instr), decodeTableWord nbits w = some i →
    step (s.withFetchWord nbits w) =
      advanceOut (exec i { s with seq := .idle, env := releaseReset s.env })

/-- R121: with no command presented a step in IDLE changes no register and adds no event; what
changes is the model's own bookkeeping (log 4, 5). -/
def Obligations.IdleWithoutCommandChangesNothing : Prop :=
  ∀ (s : State) (rest : List (Option Record)),
    s.input.rst = false → s.seq = .idle →
    (s.host = [] → step s = .next { s with env := s.env.tail, tick := s.tick + 1 }) ∧
    (s.host = none :: rest →
      step s = .next { s with host := rest, env := s.env.tail, tick := s.tick + 1 })

/-- 60_exceptions.md R282: a command with a reserved opcode is accepted, changes no latch but OP,
performs no external action, and completes with `ERR = 1`, `ERRINFO = OP`, `ERRSEQ = 0`; every
register but those and DONE and POLLCNT (40_sequencer_control.md R124) is unchanged. -/
def Obligations.ReservedOpcodeCompletes : Prop :=
  ∀ (s : State) (c : Record) (rest : List (Option Record)),
    s.input.rst = false → s.seq = .idle → s.host = some c :: rest →
    c.op.toNat ∉ [0x01, 0x02, 0x03, 0x04, 0x05, 0x10, 0x11, 0x12, 0x20, 0x21] →
    ∃ t, step s = .next t ∧ t.host = rest ∧
      t = { s with
        op := c.op
        done := true
        err := .illegal
        errInfo := c.op
        errSeq := 0
        pollCnt := 0
        host := t.host
        env := t.env
        tick := t.tick
        trace := t.trace } ∧
      t.err.code = 1 ∧ sentFrames t.trace = sentFrames s.trace ∧
      sampleCount t.trace = sampleCount s.trace ∧ delayTotal t.trace = delayTotal s.trace

/-- R121: while SEQ is not IDLE the presented command waits: it is neither taken nor lost. -/
def Obligations.BusyStepKeepsThePort : Prop :=
  ∀ s t : State, s.seq ≠ .idle → step s = .next t → t.host = s.host

/-- R121: a command that is not the running one does nothing while the block is busy. (That a
meaning answers so is the model's form, log 10.) -/
def Obligations.HeldOffCommandChangesNothing : Prop :=
  ∀ (i : Instr) (s : State), s.seq ≠ .idle →
    (∀ j, s.running = some j → j.opcode ≠ i.opcode) → exec i s = .next s

/-- 70_reset_and_hazards.md R320, R323: with `rst` asserted, in any state, the block goes to the
reset values R34 gives, with no event; the port keeps what the host holds to it (log 8). -/
def Obligations.ResetAtAnyStep : Prop :=
  ∀ s : State, s.input.rst = true → ∃ t, step s = .next t ∧
    t.seq = .idle ∧ t.csn = true ∧ t.pollCnt = 0 ∧ t.busy = false ∧ t.done = false ∧
    t.err.code = 0 ∧ t.errInfo = 0 ∧ t.errSeq = 0 ∧ t.txOk = false ∧
    t.trace = s.trace ∧ t.cfg = s.cfg ∧ t.host = s.host

/-! ### Acceptance -/

/-- R122, R25: acceptance of WR1, RD1 and STB: the status clears, OP and the operands R96 lists are
latched, SEQ is PRIM, nothing else changes. -/
def Obligations.AcceptSingleTransactions : Prop :=
  ∀ (s : State) (a v : Byte), s.seq = .idle →
    exec (.wr1 a v) s = .next { accepted (.wr1 a v) s with addr := a, val := v, seq := .prim } ∧
    exec (.rd1 a) s = .next { accepted (.rd1 a) s with addr := a, seq := .prim } ∧
    exec (.stb a) s = .next { accepted (.stb a) s with addr := a, seq := .prim }

/-- R122, R123 line 2, R25: WRB is accepted when `WLEN <= WRB_MAX` and refused with E_RANGE, info 1,
otherwise, its operands latched in both cases. (That the entries of WBUF past the list keep their
value is the model's reading, log 13.) -/
def Obligations.AcceptWriteBurst : Prop :=
  ∀ (s : State) (a n : Byte) (l : List Byte), s.seq = .idle →
    (n.toNat ≤ s.cfg.wrbMax →
      exec (.wrb a n l) s =
        .next { accepted (.wrb a n l) s with
          addr := a, wlen := n, wbuf := overwrite s.wbuf l, seq := .prim }) ∧
    (s.cfg.wrbMax < n.toNat →
      exec (.wrb a n l) s =
        .next (endedWith .range 1 0 { accepted (.wrb a n l) s with
          addr := a, wlen := n, wbuf := overwrite s.wbuf l }))

/-- R122, R123 line 3, R158: RDB is refused with E_RANGE, info 2, exactly when RDB_OVERFLOW is
refuse and the integer `ADDR + 8*LEN` exceeds 0xFF. -/
def Obligations.AcceptReadBurst : Prop :=
  ∀ (s : State) (a n : Byte), s.seq = .idle →
    (¬ (s.cfg.rdbOverflow = .refuse ∧ 0xFF < a.toNat + 8 * n.toNat) →
      exec (.rdb a n) s =
        .next { accepted (.rdb a n) s with addr := a, len := n, seq := .prim }) ∧
    (s.cfg.rdbOverflow = .refuse ∧ 0xFF < a.toNat + 8 * n.toNat →
      exec (.rdb a n) s =
        .next (endedWith .range 2 0 { accepted (.rdb a n) s with addr := a, len := n }))

/-- R122: acceptance of INIT, CFGRX and CFGTX, which no check can refuse. -/
def Obligations.AcceptSetup : Prop :=
  ∀ (s : State) (f : BitVec 24) (y : BitVec 16), s.seq = .idle →
    exec (.init f y) s =
      .next { accepted (.init f y) s with freqw := f, sync16 := y, seq := .initStbSres } ∧
    exec .cfgrx s =
      .next { accepted .cfgrx s with cfgSel := .rx, cfgIdx := 0, seq := .cfgWrite } ∧
    exec .cfgtx s =
      .next { accepted .cfgtx s with cfgSel := .tx, cfgIdx := 0, seq := .cfgWrite }

/-- R122, R123 line 4: RXPKT is refused with E_RANGE, info 2, exactly when RDB_OVERFLOW is refuse
and `A_RXFIFO + 8*LEN` exceeds 0xFF. -/
def Obligations.AcceptReceive : Prop :=
  ∀ (s : State) (n : Byte), s.seq = .idle →
    (¬ (s.cfg.rdbOverflow = .refuse ∧ 0xFF < s.cfg.map.rxfifo.toNat + 8 * n.toNat) →
      exec (.rxpkt n) s =
        .next { accepted (.rxpkt n) s with len := n, seq := .rxWrPktlen }) ∧
    (s.cfg.rdbOverflow = .refuse ∧ 0xFF < s.cfg.map.rxfifo.toNat + 8 * n.toNat →
      exec (.rxpkt n) s = .next (endedWith .range 2 0 { accepted (.rxpkt n) s with len := n }))

/-- R122, R123 lines 5 and 6, R242: TXPKT is refused with E_OVERSIZE above 496 bits, then with
E_ALIGN, info `PLEN mod 8`, off a multiple of 8; TX_OK is cleared in every case. (That the entries
of PBITS past the payload keep their value is the model's reading, log 13.) -/
def Obligations.AcceptTransmit : Prop :=
  ∀ (s : State) (y n : BitVec 16) (b : BitString), s.seq = .idle →
    let t := { accepted (.txpkt y n b) s with
      sync16 := y, plen := n, pbits := overwrite s.pbits b, txOk := false }
    (496 < n.toNat → exec (.txpkt y n b) s = .next (endedWith .oversize 0 0 t)) ∧
    (n.toNat ≤ 496 → n.toNat % 8 ≠ 0 →
      exec (.txpkt y n b) s = .next (endedWith .align (BitVec.ofNat 8 (n.toNat % 8)) 0 t)) ∧
    (n.toNat ≤ 496 → n.toNat % 8 = 0 →
      exec (.txpkt y n b) s = .next { t with seq := .txFrame })

/-- What a partial write of a buffer does: the entries of the list replace the first ones and every
later entry keeps its value. For RBUF that is 41_spi_transactions.md R157; that WBUF and PBITS are
written so at acceptance is the model's reading, log 13. -/
def Obligations.OverwriteReplacesExactlyTheFirst : Prop :=
  ∀ (α : Type) (n : Nat) (old : Vector α n) (new : List α) (k : Nat) (hk : k < n),
    (∀ hl : k < new.length, (overwrite old new)[k] = new[k]) ∧
    (new.length ≤ k → (overwrite old new)[k] = old[k])

/-! ### The five transactions as host commands -/

/-- 41_spi_transactions.md R151, R160: in PRIM, WR1 sends `{ADDR, VAL}`, ignores what it receives
and completes; nothing else changes. -/
def Obligations.WriteSingleTransaction : Prop :=
  ∀ (s : State) (a v : Byte) (m : List Byte),
    s.seq = .prim → s.op = opWr1 → s.csn = true → s.addr = a → s.val = v →
    s.spiAnswer 2 = some m →
    exec (.wr1 a v) s = .next (ended (afterXfer [a, v] m s))

/-- R153, R160: in PRIM, RD1 sends `{ADDR | 0x80, 0x00}`, puts the second received byte in RDATA and
completes. -/
def Obligations.ReadSingleTransaction : Prop :=
  ∀ (s : State) (a m0 m1 : Byte),
    s.seq = .prim → s.op = opRd1 → s.csn = true → s.addr = a → s.spiAnswer 2 = some [m0, m1] →
    exec (.rd1 a) s =
      .next (ended { afterXfer [a ||| 0x80, 0x00] [m0, m1] s with rdata := m1 })

/-- R155, R160: in PRIM, WRB sends `ADDR | 0x40` and then `WBUF[0..WLEN-1]`, ignores what it
receives and completes. -/
def Obligations.WriteBurstTransaction : Prop :=
  ∀ (s : State) (a n : Byte) (l m : List Byte),
    s.seq = .prim → s.op = opWrb → s.csn = true → s.addr = a → s.wlen = n → n.toNat ≤ 64 →
    s.wbuf.toList.take n.toNat = l → s.spiAnswer (n.toNat + 1) = some m →
    exec (.wrb a n l) s = .next (ended (afterXfer ((a ||| 0x40) :: l) m s))

/-- R157, R158, R160: in PRIM, RDB sends the `LEN + 1` bytes `(ADDR + 8*i) | 0xC0` (the sum taken
mod 256, which under refuse changes none), fills `RBUF[0..LEN]` and RLEN and completes. -/
def Obligations.ReadBurstTransaction : Prop :=
  ∀ (s : State) (a n : Byte) (m : List Byte),
    s.seq = .prim → s.op = opRdb → s.csn = true → s.addr = a → s.len = n →
    ¬ (s.cfg.rdbOverflow = .refuse ∧ 0xFF < a.toNat + 8 * n.toNat) →
    s.spiAnswer (n.toNat + 1) = some m →
    exec (.rdb a n) s =
      .next (ended
        { afterXfer
            ((List.range (n.toNat + 1)).map fun i => BitVec.ofNat 8 (a.toNat + 8 * i) ||| 0xC0) m s
          with rbuf := overwrite s.rbuf m, rlen := BitVec.ofNat 9 (n.toNat + 1) })

/-- R159, R160: in PRIM, STB sends `{ADDR, 0x00}`, puts the two received bytes in STAT0 and STAT1
and completes. -/
def Obligations.StrobeTransaction : Prop :=
  ∀ (s : State) (a m0 m1 : Byte),
    s.seq = .prim → s.op = opStb → s.csn = true → s.addr = a → s.spiAnswer 2 = some [m0, m1] →
    exec (.stb a) s =
      .next (ended { afterXfer [a, 0x00] [m0, m1] s with stat0 := m0, stat1 := m1 })

/-- R157, R158, R161: the `i`-th address byte of a burst read, for every `i` in the closed interval
`[0, LEN]`, is the integer sum OR 0xC0, with no byte wrapped when `ADDR + 8*LEN <= 0xFF`. -/
def Obligations.BurstReadAddressBytes : Prop :=
  ∀ (a n : Byte), (rdbMosi a n).length = n.toNat + 1 ∧
    ∀ i, i ≤ n.toNat → ∃ b : Byte, (rdbMosi a n)[i]? = some (b ||| 0xC0) ∧
      b.toNat = (a.toNat + 8 * i) % 256 ∧
      (a.toNat + 8 * n.toNat ≤ 0xFF → b.toNat = a.toNat + 8 * i)

/-- R127, R287: in every fine state that makes a transaction or a sample, a failure ends the command
with E_TRANSPORT, info 0, in that state, CSN released, the frame of the state attempted and nothing
else written. `SafeState` rules out only states no run reaches. With SPI_CAN_FAIL false, no step,
from any state, shows a failed action or ends a command with E_TRANSPORT. -/
def Obligations.TransportFailureEndsCommand : Prop :=
  (∀ (i : Instr) (s : State), SafeState s → s.running = some i → s.cfg.spiCanFail = true →
    (∀ k, loopOf s.seq = some k → polls k s = true) →
    (transacts s = true → s.input.spi = .fail →
      exec i s = .next (endedWith .transport 0 s.seq.code (afterXferFail (frameSent s) s))) ∧
    (s.seq = .rxWaitRise ∨ s.seq = .rxWaitFall → s.input.gdo = .fail →
      exec i s =
        .next (endedWith .transport 0 s.seq.code { s with trace := .gdoFail :: s.trace }))) ∧
  (∀ s t : State, s.cfg.spiCanFail = false → step s = .next t →
    (t.err = .transport → s.err = .transport) ∧
    ∀ es, t.trace = es ++ s.trace →
      .gdoFail ∉ es ∧ (∀ mosi, .xferFail mosi ∉ es) ∧ ∀ info, .done .transport info ∉ es)

/-! ### INIT, CFGRX, CFGTX -/

/-- 42_config_init.md R185: the nine transactions of INIT, each with its bytes and the next state;
the last completes the command. -/
def Obligations.InitTransactions : Prop :=
  ∀ (f : BitVec 24) (y : BitVec 16) (s : State) (m : List Byte),
    s.csn = true → s.freqw = f → s.sync16 = y →
    (s.spiAnswer 2 = some m →
      (s.seq = .initStbSres → exec (.init f y) s =
        .next { afterXfer [s.cfg.map.sres, 0x00] m s with seq := .initWrFreq2 }) ∧
      (s.seq = .initWrFreq2 → exec (.init f y) s =
        .next { afterXfer [s.cfg.map.freq2, f.extractLsb' 16 8] m s with seq := .initWrFreq1 }) ∧
      (s.seq = .initWrFreq1 → exec (.init f y) s =
        .next { afterXfer [s.cfg.map.freq1, f.extractLsb' 8 8] m s with seq := .initWrFreq0 }) ∧
      (s.seq = .initWrFreq0 → exec (.init f y) s =
        .next { afterXfer [s.cfg.map.freq0, f.extractLsb' 0 8] m s with seq := .initWrSync1 }) ∧
      (s.seq = .initWrSync1 → exec (.init f y) s =
        .next { afterXfer [s.cfg.map.sync1, y.extractLsb' 8 8] m s with seq := .initWrSync0 }) ∧
      (s.seq = .initWrSync0 → exec (.init f y) s =
        .next { afterXfer [s.cfg.map.sync0, y.extractLsb' 0 8] m s with seq := .initWrbPatable }) ∧
      (s.seq = .initStbSftx → exec (.init f y) s =
        .next { afterXfer [s.cfg.map.sftx, 0x00] m s with seq := .initStbSfrx }) ∧
      (s.seq = .initStbSfrx → exec (.init f y) s =
        .next (ended (afterXfer [s.cfg.map.sfrx, 0x00] m s)))) ∧
    (s.spiAnswer 9 = some m → s.seq = .initWrbPatable → exec (.init f y) s =
      .next { afterXfer ((s.cfg.map.patable ||| 0x40) :: s.cfg.patable.toList) m s with
        seq := .initStbSftx })

/-- R187, R189, R190: one pair of the profile of CFGRX or CFGTX per step, and completion with no
external action when every pair is written. -/
def Obligations.ProfileApplication : Prop :=
  ∀ (s : State) (m : List Byte) (i : Instr) (p : Profile),
    s.seq = .cfgWrite → s.csn = true →
    (i = .cfgrx ∧ s.cfgSel = .rx ∧ p = s.cfg.profileRx ∨
      i = .cfgtx ∧ s.cfgSel = .tx ∧ p = s.cfg.profileTx) →
    (∀ a v, p[s.cfgIdx.toNat]? = some (a, v) → s.spiAnswer 2 = some m →
      exec i s = .next { afterXfer [a, v] m s with cfgIdx := s.cfgIdx + 1 }) ∧
    (s.cfgIdx.toNat = p.length → exec i s = .next (ended s))

/-! ### RXPKT -/

/-- 43_rx_sequence.md R212, R213: PKTLEN is written with LEN, then SRX is strobed and the rise wait
entered with POLLCNT 0. -/
def Obligations.ReceiveConfigures : Prop :=
  ∀ (s : State) (n : Byte) (m : List Byte),
    s.csn = true → s.len = n → s.spiAnswer 2 = some m →
    (s.seq = .rxWrPktlen → exec (.rxpkt n) s =
      .next { afterXfer [s.cfg.map.pktlen, n] m s with seq := .rxStbSrx }) ∧
    (s.seq = .rxStbSrx → exec (.rxpkt n) s =
      .next { afterXfer [s.cfg.map.srx, 0x00] m s with pollCnt := 0, seq := .rxWaitRise })

/-- R214, R215, R129: the two edge waits. A poll that is made samples the level once; the rise wait
leaves on 1, the fall wait on 0, with POLLCNT 0; any other level is counted. -/
def Obligations.ReceiveEdgeWaits : Prop :=
  ∀ (s : State) (n : Byte) (g : Bool), s.len = n → s.gdoAnswer = some g →
    let t := { s with trace := .gdo g :: s.trace }
    (s.seq = .rxWaitRise → polls .edgeRise s = true → exec (.rxpkt n) s =
      .next (if g = true then { t with pollCnt := 0, seq := .rxWaitFall }
        else { t with pollCnt := s.pollCnt + 1 })) ∧
    (s.seq = .rxWaitFall → polls .edgeFall s = true → exec (.rxpkt n) s =
      .next (if g = false then { t with pollCnt := 0, seq := .rxRdbFifo }
        else { t with pollCnt := s.pollCnt + 1 }))

/-- R216: the FIFO burst read fills RBUF and RLEN; RX_BITS is the received bytes after the first,
unpacked, and RX_NBITS is `8 * LEN`. -/
def Obligations.ReceiveReadsFifo : Prop :=
  ∀ (s : State) (n : Byte) (m : List Byte),
    s.seq = .rxRdbFifo → s.csn = true → s.len = n →
    ¬ (s.cfg.rdbOverflow = .refuse ∧ 0xFF < s.cfg.map.rxfifo.toNat + 8 * n.toNat) →
    s.spiAnswer (n.toNat + 1) = some m →
    exec (.rxpkt n) s =
      .next
        { afterXfer (rdbMosi s.cfg.map.rxfifo n) m s with
          rbuf := overwrite s.rbuf m
          rlen := BitVec.ofNat 9 (n.toNat + 1)
          rxBits := unpack m.tail
          rxNbits := BitVec.ofNat 12 (8 * n.toNat)
          seq := .rxStbSidle }

/-- R10, R216: `Unpack(B)[8k + j] = (B[k] >> (7 - j)) & 1`. -/
def Obligations.UnpackIsMostSignificantFirst : Prop :=
  ∀ (l : List Byte) (k j : Nat) (hk : k < l.length), j < 8 →
    (unpack l)[8 * k + j]? = some (l[k].getLsbD (7 - j))

/-- R218, R219, R220: SIDLE is strobed, MARCSTATE polled until its low five bits read 0x01, SFRX
strobed, and the command completes. -/
def Obligations.ReceiveCleansUp : Prop :=
  ∀ (s : State) (n : Byte), s.csn = true → s.len = n →
    (∀ m, s.spiAnswer 2 = some m →
      (s.seq = .rxStbSidle → exec (.rxpkt n) s =
        .next { afterXfer [s.cfg.map.sidle, 0x00] m s with pollCnt := 0, seq := .rxWaitIdle }) ∧
      (s.seq = .rxStbSfrx → exec (.rxpkt n) s =
        .next (ended (afterXfer [s.cfg.map.sfrx, 0x00] m s)))) ∧
    (∀ b v, s.spiAnswer 2 = some [b, v] → s.seq = .rxWaitIdle → polls .marc s = true →
      let t := afterXfer [s.cfg.map.marcstate ||| 0x80, 0x00] [b, v] s
      exec (.rxpkt n) s =
        .next (if v &&& 0x1F = 0x01 then { t with pollCnt := 0, seq := .rxStbSfrx }
          else { t with pollCnt := s.pollCnt + 1 }))

/-! ### TXPKT -/

/-- 44_tx_sequence.md R245, R247, R248: the frame is built with no external action, PKTLEN is
written with FRAME_LEN, SIDLE is strobed and the wait entered with POLLCNT 0. -/
def Obligations.TransmitFrames : Prop :=
  ∀ (s : State) (y n : BitVec 16) (b : BitString),
    s.sync16 = y → s.plen = n → s.pbits.toList.take n.toNat = b →
    (s.seq = .txFrame → n.toNat ≤ 496 → n.toNat % 8 = 0 → exec (.txpkt y n b) s =
      .next { s with frame := overwrite s.frame (frameBytes y b), frameLen := 64,
                     seq := .txWrPktlen }) ∧
    (∀ m, s.csn = true → s.spiAnswer 2 = some m →
      (s.seq = .txWrPktlen → exec (.txpkt y n b) s =
        .next { afterXfer [s.cfg.map.pktlen, s.frameLen.setWidth 8] m s with
          seq := .txStbSidle }) ∧
      (s.seq = .txStbSidle → exec (.txpkt y n b) s =
        .next { afterXfer [s.cfg.map.sidle, 0x00] m s with pollCnt := 0, seq := .txWaitIdle }))

/-- R243, R244: for every legal payload the frame is 64 bytes: `62 - L/8` bytes 0xAA, the sync word
high byte first, the payload packed. -/
def Obligations.FrameLayout : Prop :=
  ∀ (y : BitVec 16) (b : BitString), b.length ≤ 496 → b.length % 8 = 0 →
    frameBytes y b =
      List.replicate (62 - b.length / 8) 0xAA ++ [y.extractLsb' 8 8, y.extractLsb' 0 8] ++ pack b ∧
    (frameBytes y b).length = 64

/-- R249, R250, R251: MARCSTATE is polled until its low five bits read 0x01, SFTX is strobed, and
the 50 ms settle delay is one step. -/
def Obligations.TransmitFlushes : Prop :=
  ∀ (s : State) (y n : BitVec 16) (p : BitString),
    s.csn = true → s.sync16 = y → s.plen = n → s.txPayload = p →
    (∀ b v, s.spiAnswer 2 = some [b, v] → s.seq = .txWaitIdle → polls .marc s = true →
      let t := afterXfer [s.cfg.map.marcstate ||| 0x80, 0x00] [b, v] s
      exec (.txpkt y n p) s =
        .next (if v &&& 0x1F = 0x01 then { t with pollCnt := 0, seq := .txStbSftx }
          else { t with pollCnt := s.pollCnt + 1 })) ∧
    (∀ m, s.spiAnswer 2 = some m → s.seq = .txStbSftx → exec (.txpkt y n p) s =
      .next { afterXfer [s.cfg.map.sftx, 0x00] m s with seq := .txSettle1 }) ∧
    (s.seq = .txSettle1 → exec (.txpkt y n p) s =
      .next { s with seq := .txWrbFifo, trace := .delay 50 :: s.trace })

/-- R252, R253: `FRAME[0..FRAME_LEN-1]` goes to the TX FIFO in one burst, then STX is strobed and
the drain loop entered with POLLCNT 0. -/
def Obligations.TransmitLoadsAndStarts : Prop :=
  ∀ (s : State) (y n : BitVec 16) (p : BitString) (m : List Byte),
    s.csn = true → s.sync16 = y → s.plen = n → s.txPayload = p →
    (s.seq = .txWrbFifo → s.frameLen.toNat ≤ 64 → s.spiAnswer (s.frameLen.toNat + 1) = some m →
      exec (.txpkt y n p) s =
        .next { afterXfer ((s.cfg.map.txfifo ||| 0x40) :: s.frame.toList.take s.frameLen.toNat) m s
          with seq := .txStbStx }) ∧
    (s.seq = .txStbStx → s.spiAnswer 2 = some m → exec (.txpkt y n p) s =
      .next { afterXfer [s.cfg.map.stx, 0x00] m s with pollCnt := 0, seq := .txPollDrain })

/-- R254, R255: TXBYTES is polled until its low seven bits read 0, each unsatisfied read counted and
followed by a 100 ms backoff that keeps POLLCNT. The abort input and the limit, which end the
command with info 4, are looked at in TX_POLL_DRAIN; TX_BACKOFF looks at neither. -/
def Obligations.TransmitDrains : Prop :=
  ∀ (s : State) (y n : BitVec 16) (p : BitString),
    s.csn = true → s.sync16 = y → s.plen = n → s.txPayload = p →
    (s.seq = .txPollDrain →
      (s.cfg.hasAbort = true → s.input.abortReq = true →
        exec (.txpkt y n p) s = .next (endedWith .cancelled 4 0x38 s)) ∧
      (¬ (s.cfg.hasAbort = true ∧ s.input.abortReq = true) →
        ∀ l, s.cfg.pollLimitDrain = .polls l → l ≤ s.pollCnt →
          exec (.txpkt y n p) s = .next (endedWith .timeout 4 0x38 s)) ∧
      (∀ b v, s.spiAnswer 2 = some [b, v] → polls .drain s = true →
        let t := afterXfer [s.cfg.map.txbytes ||| 0x80, 0x00] [b, v] s
        exec (.txpkt y n p) s =
          .next (if v &&& 0x7F = 0 then { t with pollCnt := 0, seq := .txStbSftx2 }
            else { t with pollCnt := s.pollCnt + 1, seq := .txBackoff }))) ∧
    (s.seq = .txBackoff → exec (.txpkt y n p) s =
      .next { s with seq := .txPollDrain, trace := .delay 100 :: s.trace })

/-- R256, R257, R258, R259: both FIFOs are flushed, 50 ms pass, and one TXBYTES read gives RESIDUAL,
TX_OK and the end of the command: normal at 0, E_TXUNDERFLOW with the count otherwise. -/
def Obligations.TransmitChecks : Prop :=
  ∀ (s : State) (y n : BitVec 16) (p : BitString),
    s.csn = true → s.sync16 = y → s.plen = n → s.txPayload = p →
    (∀ m, s.spiAnswer 2 = some m →
      (s.seq = .txStbSftx2 → exec (.txpkt y n p) s =
        .next { afterXfer [s.cfg.map.sftx, 0x00] m s with seq := .txStbSfrx }) ∧
      (s.seq = .txStbSfrx → exec (.txpkt y n p) s =
        .next { afterXfer [s.cfg.map.sfrx, 0x00] m s with seq := .txSettle2 })) ∧
    (s.seq = .txSettle2 → exec (.txpkt y n p) s =
      .next { s with seq := .txCheck, trace := .delay 50 :: s.trace }) ∧
    (∀ b v, s.spiAnswer 2 = some [b, v] → s.seq = .txCheck →
      let t := afterXfer [s.cfg.map.txbytes ||| 0x80, 0x00] [b, v] s
      (v &&& 0x7F = 0 → exec (.txpkt y n p) s =
        .next (ended { t with residual := 0, txOk := true })) ∧
      (v &&& 0x7F ≠ 0 → exec (.txpkt y n p) s =
        .next (endedWith .txUnderflow (v &&& 0x7F) 0x3D
          { t with residual := (v &&& 0x7F).setWidth 7, txOk := false })))

/-! ### Polls and errors -/

/-- R129, R130, R288, R289, R294: in every wait state an abort ends the command before the limit is
looked at, and a reached limit ends it before the poll is made; ERRINFO is the kind code. -/
def Obligations.WaitsCancelAndTimeOut : Prop :=
  ∀ (s : State) (i : Instr) (k : PollKind), s.running = some i → loopOf s.seq = some k →
    s.seq ≠ .txBackoff →
    (s.cfg.hasAbort = true → s.input.abortReq = true →
      exec i s = .next (endedWith .cancelled k.code s.seq.code s)) ∧
    (¬ (s.cfg.hasAbort = true ∧ s.input.abortReq = true) →
      ∀ n, k.limit s.cfg = .polls n → n ≤ s.pollCnt →
        exec i s = .next (endedWith .timeout k.code s.seq.code s))

/-! ### Pure functions -/

/-- 00_scope.md R10, 43_rx_sequence.md R217: Unpack and Pack undo each other. -/
def Obligations.PackAndUnpackAreInverse : Prop :=
  (∀ l : List Byte, pack (unpack l) = l) ∧
  (∀ b : BitString, b.length % 8 = 0 → unpack (pack b) = b)

/-- 42_config_init.md R181, with `q` the exact quotient `hz * 65536 / XTAL_HZ`: FreqWord rounds `q`
to the nearest integer, of two equally near to the even one, and then adds the offset, in word
units, before Range24. With no offset and the rounded word at most 0xFFFFFF (`q` less than half a
unit above it) a word results, and the frequency rebuilt from it is within one unit of the
requested one, `|w * XTAL_HZ / 65536 - f| <= XTAL_HZ / 65536`. Every comparison is multiplied by
its denominators. -/
def Obligations.FrequencyWordWithinOneUnit : Prop :=
  ∀ (cfg : Config) (hzNum hzDen : Nat), 0 < cfg.xtalHz → 0 < hzDen →
    let num := hzNum * 65536
    let den := hzDen * cfg.xtalHz
    (∃ w : Nat, 2 * w * den ≤ 2 * num + den ∧ 2 * num ≤ 2 * w * den + den ∧
      (2 * w * den = 2 * num + den ∨ 2 * num = 2 * w * den + den → w % 2 = 0) ∧
      ∀ offset : Int, freqWord cfg hzNum hzDen offset = range24 cfg.freqOverflow (w + offset)) ∧
    (2 * num < (2 * 0xFFFFFF + 1) * den →
      ∃ w : BitVec 24, freqWord cfg hzNum hzDen 0 = .ok w ∧
        w.toNat * cfg.xtalHz * hzDen ≤ hzNum * 65536 + cfg.xtalHz * hzDen ∧
        hzNum * 65536 ≤ w.toNat * cfg.xtalHz * hzDen + cfg.xtalHz * hzDen)

/-- R182: the three treatments of a word outside 24 bits, and none inside. -/
def Obligations.FrequencyWordRange : Prop :=
  ∀ (mode : FreqOverflow) (w : Int),
    (0 ≤ w → w ≤ 0xFFFFFF → ∃ v, range24 mode w = .ok v ∧ (v.toNat : Int) = w) ∧
    (w < 0 ∨ 0xFFFFFF < w →
      range24 .reject w = .error { err := .range, info := 3 } ∧
      (∃ v, range24 .truncate w = .ok v ∧ (v.toNat : Int) = w % 16777216) ∧
      (w < 0 → range24 .clamp w = .ok 0) ∧ (0xFFFFFF < w → range24 .clamp w = .ok 0xFFFFFF))

/-- R183: the hexadecimal digits are `0` to `9`, `a` to `f` and `A` to `F`, with their values, and
no other character. Exactly four of them parse, to the value of the four digits; any other length,
and any character that is no hexadecimal digit, is E_SYNCFMT. -/
def Obligations.SyncWordParse : Prop :=
  (∀ (c : Char) (d : Nat), hexDigit c = some d ↔ (c, d) ∈
    [('0', 0), ('1', 1), ('2', 2), ('3', 3), ('4', 4), ('5', 5), ('6', 6), ('7', 7), ('8', 8),
     ('9', 9), ('a', 10), ('b', 11), ('c', 12), ('d', 13), ('e', 14), ('f', 15),
     ('A', 10), ('B', 11), ('C', 12), ('D', 13), ('E', 14), ('F', 15)]) ∧
  (∀ s : List Char, s.length ≠ 4 → parseSync4 s = .error { err := .syncFmt, info := 0 }) ∧
  (∀ s : List Char, (∃ c ∈ s, hexDigit c = none) →
    parseSync4 s = .error { err := .syncFmt, info := 0 }) ∧
  (∀ (c0 c1 c2 c3 : Char) (d0 d1 d2 d3 : Nat), hexDigit c0 = some d0 → hexDigit c1 = some d1 →
    hexDigit c2 = some d2 → hexDigit c3 = some d3 →
    ∃ w, parseSync4 [c0, c1, c2, c3] = .ok w ∧
      w.toNat = d0 * 4096 + d1 * 256 + d2 * 16 + d3 ∧
      (w.extractLsb' 8 8).toNat = d0 * 16 + d1 ∧ (w.extractLsb' 0 8).toNat = d2 * 16 + d3)

/-! ### Invariants and whole-machine rules -/

/-- The invariant holds after reset. (Its clauses about registers R34 leaves unspecified rest on the
reset values of log 7.) -/
def Obligations.InvariantHoldsAtReset : Prop := SafeState State.reset

/-- Every step keeps the invariant, whatever the inputs. -/
def Obligations.InvariantKeptByEveryStep : Prop :=
  ∀ s t : State, SafeState s → step s = .next t → SafeState t

/-- R132: every arm is total: from a state of the invariant a step always answers a next state, so
that no stop of the model is ever reached. -/
def Obligations.StepAlwaysAnswers : Prop := ∀ s : State, SafeState s → ∃ t, step s = .next t

/-- R126: every step, from every state, keeps the shape of the trace: CsLow, one exchange, CsHigh. -/
def Obligations.TransactionsStayBracketed : Prop :=
  ∀ s t : State, wellBracketed s.trace = true → step s = .next t → wellBracketed t.trace = true

/-- R121: commands never overlap: acceptances and completions alternate, every external action lies
between the two, and a command is open exactly while BUSY is 1. (A reset abandons a command without
a completion, R323, so that a step with `rst` is left out.) -/
def Obligations.CommandsNeverOverlap : Prop :=
  ∀ s t : State, s.input.rst = false → commandsAlternate s.trace = true →
    commandOpen s.trace = s.busy → step s = .next t →
    commandsAlternate t.trace = true ∧ commandOpen t.trace = t.busy

/-- 00_scope.md R13: a step only adds events, and among them at most one external action. -/
def Obligations.AtMostOneActionPerStep : Prop :=
  ∀ s t : State, step s = .next t →
    ∃ es, t.trace = es ++ s.trace ∧ (es.filter Event.isAction).length ≤ 1

/-- 10_state.md R26, R27, R28, R30: each result register and buffer changes only in the steps its
rule names. -/
def Obligations.ResultsWrittenOnlyWhereSaid : Prop :=
  ∀ s t : State, s.input.rst = false → step s = .next t →
    (t.rdata ≠ s.rdata → s.seq = .prim ∧ s.op = opRd1) ∧
    (t.stat0 ≠ s.stat0 ∨ t.stat1 ≠ s.stat1 → s.seq = .prim ∧ s.op = opStb) ∧
    (t.rbuf ≠ s.rbuf ∨ t.rlen ≠ s.rlen → s.seq = .prim ∧ s.op = opRdb ∨ s.seq = .rxRdbFifo) ∧
    (t.rxBits ≠ s.rxBits ∨ t.rxNbits ≠ s.rxNbits → s.seq = .rxRdbFifo) ∧
    (t.residual ≠ s.residual → s.seq = .txCheck) ∧
    (t.txOk ≠ s.txOk → s.seq = .txCheck ∨ s.seq = .idle ∧ t.op = opTxpkt ∧ t.txOk = false) ∧
    (t.frame ≠ s.frame ∨ t.frameLen ≠ s.frameLen → s.seq = .txFrame)

/-- R25, R23: the operand latches and CFG_SEL hold their values while a command runs, CFG_IDX moves
only in CFG_WRITE, by one; 00_scope.md R8: the parameters never change. -/
def Obligations.LatchesHeldWhileRunning : Prop :=
  ∀ s t : State, step s = .next t →
    t.cfg = s.cfg ∧
    (s.input.rst = false → s.seq ≠ .idle →
      t.op = s.op ∧ t.addr = s.addr ∧ t.val = s.val ∧ t.len = s.len ∧ t.wlen = s.wlen ∧
      t.wbuf = s.wbuf ∧ t.freqw = s.freqw ∧ t.sync16 = s.sync16 ∧ t.plen = s.plen ∧
      t.pbits = s.pbits ∧ t.cfgSel = s.cfgSel ∧
      (t.cfgIdx ≠ s.cfgIdx → s.seq = .cfgWrite ∧ t.cfgIdx = s.cfgIdx + 1))

/-- R129, R134, R342: with all three limits finite and no reset, a running command ends within
`remaining` steps, whatever the chip, the GDO0 line and the host do. -/
def Obligations.CommandsEndWhenLimitsAreFinite : Prop :=
  ∀ s : State, SafeState s → limitsFinite s.cfg → noReset s →
    ∃ n ≤ remaining s, ∃ t, runSteps n s = .next t ∧ t.seq = .idle

/-! ### Whole commands on the normal path -/

/-- R184, R185, R347: an accepted INIT whose transactions succeed ends after ten steps, having sent
exactly the nine frames in order, 25 bytes, with no sample and no delay. -/
def Obligations.InitRunsToCompletion : Prop :=
  ∀ (s : State) (c : Record) (rest : List (Option Record)) (f : BitVec 24) (y : BitVec 16),
    s.seq = .idle → s.csn = true → s.host = some c :: rest → decode c = .ok (.init f y) →
    goodInputs 10 s →
    ∃ t, runSteps 10 s = .next t ∧ t.seq = .idle ∧ t.done = true ∧ t.err = .none ∧
      t.host = rest ∧
      sentFrames t.trace =
        [[s.cfg.map.sfrx, 0x00], [s.cfg.map.sftx, 0x00],
         (s.cfg.map.patable ||| 0x40) :: s.cfg.patable.toList,
         [s.cfg.map.sync0, y.extractLsb' 0 8], [s.cfg.map.sync1, y.extractLsb' 8 8],
         [s.cfg.map.freq0, f.extractLsb' 0 8], [s.cfg.map.freq1, f.extractLsb' 8 8],
         [s.cfg.map.freq2, f.extractLsb' 16 8], [s.cfg.map.sres, 0x00]] ++ sentFrames s.trace ∧
      transactionCount t.trace = transactionCount s.trace + 9 ∧
      byteCount t.trace = byteCount s.trace + 25 ∧
      sampleCount t.trace = sampleCount s.trace ∧ delayTotal t.trace = delayTotal s.trace

/-- R187, R189, R190, R347: an accepted CFGRX or CFGTX whose transactions succeed ends after two
steps more than its profile has pairs, having sent exactly one write per pair, in listed order. -/
def Obligations.ProfileRunsToCompletion : Prop :=
  ∀ (s : State) (c : Record) (rest : List (Option Record)) (i : Instr) (p : Profile),
    s.seq = .idle → s.csn = true → s.host = some c :: rest → decode c = .ok i →
    (i = .cfgrx ∧ p = s.cfg.profileRx ∨ i = .cfgtx ∧ p = s.cfg.profileTx) → p.length ≤ 255 →
    goodInputs (p.length + 2) s →
    ∃ t, runSteps (p.length + 2) s = .next t ∧ t.seq = .idle ∧ t.done = true ∧ t.err = .none ∧
      t.host = rest ∧ t.cfgIdx.toNat = p.length ∧
      sentFrames t.trace = (p.map fun av => [av.1, av.2]).reverse ++ sentFrames s.trace ∧
      sampleCount t.trace = sampleCount s.trace ∧ delayTotal t.trace = delayTotal s.trace

/-- R210 to R220, R347: an accepted RXPKT whose line rises and falls at the first samples and whose
chip is idle at the first poll ends after nine steps with the packet in RX_BITS, having sent
exactly the six frames in order, `LEN + 11` bytes, two samples, no delay. -/
def Obligations.ReceiveRunsToCompletion : Prop :=
  ∀ (s : State) (c : Record) (rest : List (Option Record)) (n : Byte)
    (i0 i1 i2 i3 i4 i5 i6 i7 i8 : StepInput) (more : List StepInput) (m : List Byte) (b v : Byte),
    s.seq = .idle → s.csn = true → s.host = some c :: rest → decode c = .ok (.rxpkt n) →
    s.cfg.wf = true → ¬ (s.cfg.rdbOverflow = .refuse ∧ 0xFF < s.cfg.map.rxfifo.toNat + 8 * n.toNat) →
    s.env = i0 :: i1 :: i2 :: i3 :: i4 :: i5 :: i6 :: i7 :: i8 :: more →
    (∀ i ∈ [i0, i1, i2, i3, i4, i5, i6, i7, i8], calmInput s.cfg i) →
    i3.gdo = .ok true → i4.gdo = .ok false → i5.spi = .ok m → m.length = n.toNat + 1 →
    i7.spi = .ok [b, v] → v &&& 0x1F = 0x01 →
    ∃ t, runSteps 9 s = .next t ∧ t.seq = .idle ∧ t.done = true ∧ t.err = .none ∧ t.host = rest ∧
      t.rxBits = unpack m.tail ∧ t.rxNbits = BitVec.ofNat 12 (8 * n.toNat) ∧
      t.rbuf = overwrite s.rbuf m ∧ t.rlen = BitVec.ofNat 9 (n.toNat + 1) ∧
      sentFrames t.trace =
        [[s.cfg.map.sfrx, 0x00], [s.cfg.map.marcstate ||| 0x80, 0x00], [s.cfg.map.sidle, 0x00],
         rdbMosi s.cfg.map.rxfifo n, [s.cfg.map.srx, 0x00], [s.cfg.map.pktlen, n]] ++
          sentFrames s.trace ∧
      transactionCount t.trace = transactionCount s.trace + 6 ∧
      byteCount t.trace = byteCount s.trace + (n.toNat + 11) ∧
      sampleCount t.trace = sampleCount s.trace + 2 ∧ delayTotal t.trace = delayTotal s.trace

/-- R240 to R259, R347: an accepted TXPKT whose chip is idle and whose FIFO is drained at the first
polls ends after fourteen steps; the last read decides TX_OK, RESIDUAL and ERR. It has sent exactly
the ten frames in order, 83 bytes, no sample, 100 ms of delay. -/
def Obligations.TransmitRunsToCompletion : Prop :=
  ∀ (s : State) (c : Record) (rest : List (Option Record)) (y n : BitVec 16) (p : BitString)
    (i0 i1 i2 i3 i4 i5 i6 i7 i8 i9 i10 i11 i12 i13 : StepInput) (more : List StepInput)
    (b4 v4 b9 v9 b13 v13 : Byte),
    s.seq = .idle → s.csn = true → s.host = some c :: rest → decode c = .ok (.txpkt y n p) →
    s.cfg.wf = true → n.toNat ≤ 496 → n.toNat % 8 = 0 →
    s.env = i0 :: i1 :: i2 :: i3 :: i4 :: i5 :: i6 :: i7 :: i8 :: i9 :: i10 :: i11 :: i12 :: i13 ::
      more →
    (∀ i ∈ [i0, i1, i2, i3, i4, i5, i6, i7, i8, i9, i10, i11, i12, i13], calmInput s.cfg i) →
    i4.spi = .ok [b4, v4] → v4 &&& 0x1F = 0x01 →
    i9.spi = .ok [b9, v9] → v9 &&& 0x7F = 0 →
    i13.spi = .ok [b13, v13] →
    ∃ t, runSteps 14 s = .next t ∧ t.seq = .idle ∧ t.done = true ∧ t.host = rest ∧
      t.txOk = decide (v13 &&& 0x7F = 0) ∧ t.residual = (v13 &&& 0x7F).setWidth 7 ∧
      t.err = (if v13 &&& 0x7F = 0 then .none else .txUnderflow) ∧
      t.errInfo = v13 &&& 0x7F ∧ t.frame.toList = frameBytes y p ∧
      sentFrames t.trace =
        [[s.cfg.map.txbytes ||| 0x80, 0x00], [s.cfg.map.sfrx, 0x00], [s.cfg.map.sftx, 0x00],
         [s.cfg.map.txbytes ||| 0x80, 0x00], [s.cfg.map.stx, 0x00],
         (s.cfg.map.txfifo ||| 0x40) :: frameBytes y p, [s.cfg.map.sftx, 0x00],
         [s.cfg.map.marcstate ||| 0x80, 0x00], [s.cfg.map.sidle, 0x00],
         [s.cfg.map.pktlen, 0x40]] ++ sentFrames s.trace ∧
      transactionCount t.trace = transactionCount s.trace + 10 ∧
      byteCount t.trace = byteCount s.trace + 83 ∧
      sampleCount t.trace = sampleCount s.trace ∧ delayTotal t.trace = delayTotal s.trace + 100

/-! ### The codes the other statements name -/

/-- 10_state.md R22, 60_exceptions.md R281, 40_sequencer_control.md R129: the code of each of the 34
fine states, of each error and of each kind of wait; the states and the limit of each kind. -/
def Obligations.CodesOfStatesErrorsAndWaits : Prop :=
  (∀ q : FineState, (q, q.code.toNat) ∈
    [(.idle, 0x00), (.prim, 0x01), (.initStbSres, 0x08), (.initWrFreq2, 0x09),
     (.initWrFreq1, 0x0A), (.initWrFreq0, 0x0B), (.initWrSync1, 0x0C), (.initWrSync0, 0x0D),
     (.initWrbPatable, 0x0E), (.initStbSftx, 0x0F), (.initStbSfrx, 0x10), (.cfgWrite, 0x18),
     (.rxWrPktlen, 0x20), (.rxStbSrx, 0x21), (.rxWaitRise, 0x22), (.rxWaitFall, 0x23),
     (.rxRdbFifo, 0x24), (.rxStbSidle, 0x25), (.rxWaitIdle, 0x26), (.rxStbSfrx, 0x27),
     (.txFrame, 0x30), (.txWrPktlen, 0x31), (.txStbSidle, 0x32), (.txWaitIdle, 0x33),
     (.txStbSftx, 0x34), (.txSettle1, 0x35), (.txWrbFifo, 0x36), (.txStbStx, 0x37),
     (.txPollDrain, 0x38), (.txBackoff, 0x39), (.txStbSftx2, 0x3A), (.txStbSfrx, 0x3B),
     (.txSettle2, 0x3C), (.txCheck, 0x3D)]) ∧
  (∀ e : ErrCode, (e, e.code.toNat) ∈
    [(.none, 0), (.illegal, 1), (.range, 2), (.align, 3), (.oversize, 4), (.transport, 5),
     (.timeout, 6), (.cancelled, 7), (.txUnderflow, 8), (.syncFmt, 9)]) ∧
  (∀ k : PollKind, (k, k.code.toNat) ∈
    [(.edgeRise, 1), (.edgeFall, 2), (.marc, 3), (.drain, 4)]) ∧
  (∀ (q : FineState) (k : PollKind), loopOf q = some k ↔ (q, k) ∈
    [(.rxWaitRise, .edgeRise), (.rxWaitFall, .edgeFall), (.rxWaitIdle, .marc),
     (.txWaitIdle, .marc), (.txPollDrain, .drain), (.txBackoff, .drain)]) ∧
  (∀ cfg : Config, PollKind.edgeRise.limit cfg = cfg.pollLimitEdge ∧
    PollKind.edgeFall.limit cfg = cfg.pollLimitEdge ∧
    PollKind.marc.limit cfg = cfg.pollLimitMarc ∧ PollKind.drain.limit cfg = cfg.pollLimitDrain)
end

