-- ==== Sys2Proof/Laws/Bits.lean ====
section
/-! SUPPORT. Facts about buffers, and the lengths of Unpack and Pack. -/

namespace Sys2Proof.Laws

theorem getElem_overwriteList_lt {α : Type} (old new : List α) (k : Nat)
    (hn : k < new.length) (ho : k < old.length) :
    (overwriteList old new)[k]'(by rw [length_overwriteList]; exact ho) = new[k] := by
  induction old generalizing new k with
  | nil => simp at ho
  | cons x xs ih =>
    cases new with
    | nil => simp at hn
    | cons y ys =>
      cases k with
      | zero => rfl
      | succ k => exact ih ys k (by simpa using hn) (by simpa using ho)

theorem getElem_overwriteList_ge {α : Type} (old new : List α) (k : Nat)
    (hn : new.length ≤ k) (ho : k < old.length) :
    (overwriteList old new)[k]'(by rw [length_overwriteList]; exact ho) = old[k] := by
  induction old generalizing new k with
  | nil => simp at ho
  | cons x xs ih =>
    cases new with
    | nil => rfl
    | cons y ys =>
      cases k with
      | zero => simp at hn
      | succ k => exact ih ys k (by simpa using hn) (by simpa using ho)

/-- A buffer overwritten by a list of its own length holds that list. -/
theorem overwriteList_of_length_eq {α : Type} (old new : List α) (h : new.length = old.length) :
    overwriteList old new = new := by
  induction old generalizing new with
  | nil => cases new with
    | nil => rfl
    | cons y ys => simp at h
  | cons x xs ih =>
    cases new with
    | nil => simp at h
    | cons y ys => simp [overwriteList, ih ys (by simpa using h)]

/-- The first entries of an overwritten buffer are the new ones. -/
theorem take_overwriteList {α : Type} (old new : List α) (n : Nat) (h : new.length = n)
    (hn : n ≤ old.length) : (overwriteList old new).take n = new := by
  induction old generalizing new n with
  | nil =>
    cases new with
    | nil => simp [overwriteList]
    | cons y ys => simp at h; simp [← h] at hn
  | cons x xs ih =>
    cases new with
    | nil => simp [← h]
    | cons y ys =>
      subst h
      simp only [overwriteList, List.length_cons, List.take_succ_cons, List.cons.injEq, true_and]
      exact ih ys _ rfl (by simpa using hn)

@[simp] theorem toList_overwrite {α : Type} {n : Nat} (old : Vector α n) (new : List α) :
    (overwrite old new).toList = overwriteList old.toList new := by
  simp [overwrite, Vector.toList]

@[simp] theorem toList_bufferOf {α : Type} (d : α) (n : Nat) (l : List α) :
    (bufferOf d n l).toList = padTo d n l := by
  simp [bufferOf, Vector.toList]

/-- Entry `k` below the new list's length is the new one. -/
theorem getElem_overwrite_lt {α : Type} {n : Nat} (old : Vector α n) (new : List α) (k : Nat)
    (hk : k < n) (hn : k < new.length) : (overwrite old new)[k] = new[k] := by
  have h := getElem_overwriteList_lt old.toList new k hn (by simpa using hk)
  simpa [overwrite] using h

/-- Entry `k` past the new list keeps its old value. -/
theorem getElem_overwrite_ge {α : Type} {n : Nat} (old : Vector α n) (new : List α) (k : Nat)
    (hk : k < n) (hn : new.length ≤ k) : (overwrite old new)[k] = old[k] := by
  have h := getElem_overwriteList_ge old.toList new k hn (by simpa using hk)
  simpa [overwrite] using h

theorem padTo_of_length {α : Type} (d : α) (l : List α) : padTo d l.length l = l := by
  induction l with
  | nil => rfl
  | cons x xs ih => simp [padTo, ih]

/-- Padding and cutting back gives the list, if it fits. -/
theorem take_padTo {α : Type} (d : α) (n : Nat) (l : List α) (h : l.length ≤ n) :
    (padTo d n l).take l.length = l := by
  induction l generalizing n with
  | nil => simp
  | cons x xs ih =>
    cases n with
    | zero => simp at h
    | succ n => simp [padTo, ih n (by simpa using h)]

@[simp] theorem length_unpackByte (b : Byte) : (unpackByte b).length = 8 := rfl

@[simp] theorem length_unpack (l : List Byte) : (unpack l).length = 8 * l.length := by
  induction l with
  | nil => rfl
  | cons b bs ih =>
    have h : unpack (b :: bs) = unpackByte b ++ unpack bs := rfl
    rw [h, List.length_append, ih]
    simp only [length_unpackByte, List.length_cons]
    omega

/-- A whole number of bytes packs to that number of bytes. -/
theorem length_pack (n : Nat) (b : BitString) (h : b.length = 8 * n) : (pack b).length = n := by
  induction n generalizing b with
  | zero =>
    have : b = [] := List.length_eq_zero_iff.mp (by simpa using h)
    simp [this, pack]
  | succ n ih =>
    match b, h with
    | b0 :: b1 :: b2 :: b3 :: b4 :: b5 :: b6 :: b7 :: rest, h =>
      have hr : rest.length = 8 * n := by simp at h; omega
      simp [pack, ih rest hr]

/-- R64: a 24-bit value is its three bytes, high byte first. -/
theorem bytes_of_24 (w : BitVec 24) :
    BitVec.extractLsb' 16 8 w ++ BitVec.extractLsb' 8 8 w ++ BitVec.extractLsb' 0 8 w = w := by
  apply BitVec.eq_of_getLsbD_eq
  intro i hi
  simp only [BitVec.getLsbD_append, BitVec.getLsbD_extractLsb']
  by_cases h1 : i < 8
  · simp [h1]
  · by_cases h2 : i < 16
    · simp [h1, show i - 8 < 8 by omega, show 8 + (i - 8) = i by omega]
    · simp [h1, show ¬ i - 8 < 8 by omega, show 16 + (i - 8 - 8) = i by omega]
      omega

/-- R64: a 16-bit value is its two bytes, high byte first. -/
theorem bytes_of_16 (w : BitVec 16) :
    BitVec.extractLsb' 8 8 w ++ BitVec.extractLsb' 0 8 w = w := by
  apply BitVec.eq_of_getLsbD_eq
  intro i hi
  simp only [BitVec.getLsbD_append, BitVec.getLsbD_extractLsb']
  by_cases h1 : i < 8
  · simp [h1]
  · simp [h1, show i - 8 < 8 by omega, show 8 + (i - 8) = i by omega]

/-- Buffers that agree below `m` have the same first `m` entries. -/
theorem take_toList_congr {α : Type} {n m : Nat} {v w : Vector α n}
    (h : ∀ (k : Nat) (hk : k < n), k < m → w[k] = v[k]) :
    w.toList.take m = v.toList.take m := by
  apply List.ext_getElem
  · simp
  · intro k h1 h2
    simp only [List.length_take, Vector.length_toList] at h1
    simpa using h k (by omega) (by omega)

theorem unpack_cons (b : Byte) (bs : List Byte) : unpack (b :: bs) = unpackByte b ++ unpack bs := rfl

/-- A buffer filled from its own entries, whatever follows them. -/
theorem bufferOf_toList_append {α : Type} {d : α} {n : Nat} (v : Vector α n) (r : List α) :
    bufferOf d n (v.toList ++ r) = v := by
  have key : ∀ l r : List α, padTo d l.length (l ++ r) = l := by
    intro l r
    induction l with
    | nil => rfl
    | cons x xs ih => simp [padTo, ih]
  apply Vector.toList_inj.mp
  simpa using key v.toList r

end Sys2Proof.Laws
end

