-- ==== Sys2Proof/Laws/State.lean ====
section
/-! SUPPORT. One lemma per field per named update of the state, each true by rfl, so that no proof
unfolds a record update of a shared operation. -/

namespace Sys2Proof.Laws

open Sys2Proof.Machine

/-! ### event -/

@[simp] theorem event_csn (s : State) (e : Event) : (s.event e).csn = s.csn := rfl
@[simp] theorem event_seq (s : State) (e : Event) : (s.event e).seq = s.seq := rfl
@[simp] theorem event_cfgSel (s : State) (e : Event) : (s.event e).cfgSel = s.cfgSel := rfl
@[simp] theorem event_cfgIdx (s : State) (e : Event) : (s.event e).cfgIdx = s.cfgIdx := rfl
@[simp] theorem event_pollCnt (s : State) (e : Event) : (s.event e).pollCnt = s.pollCnt := rfl
@[simp] theorem event_op (s : State) (e : Event) : (s.event e).op = s.op := rfl
@[simp] theorem event_addr (s : State) (e : Event) : (s.event e).addr = s.addr := rfl
@[simp] theorem event_val (s : State) (e : Event) : (s.event e).val = s.val := rfl
@[simp] theorem event_len (s : State) (e : Event) : (s.event e).len = s.len := rfl
@[simp] theorem event_wlen (s : State) (e : Event) : (s.event e).wlen = s.wlen := rfl
@[simp] theorem event_wbuf (s : State) (e : Event) : (s.event e).wbuf = s.wbuf := rfl
@[simp] theorem event_freqw (s : State) (e : Event) : (s.event e).freqw = s.freqw := rfl
@[simp] theorem event_sync16 (s : State) (e : Event) : (s.event e).sync16 = s.sync16 := rfl
@[simp] theorem event_plen (s : State) (e : Event) : (s.event e).plen = s.plen := rfl
@[simp] theorem event_pbits (s : State) (e : Event) : (s.event e).pbits = s.pbits := rfl
@[simp] theorem event_frame (s : State) (e : Event) : (s.event e).frame = s.frame := rfl
@[simp] theorem event_frameLen (s : State) (e : Event) : (s.event e).frameLen = s.frameLen := rfl
@[simp] theorem event_rbuf (s : State) (e : Event) : (s.event e).rbuf = s.rbuf := rfl
@[simp] theorem event_rlen (s : State) (e : Event) : (s.event e).rlen = s.rlen := rfl
@[simp] theorem event_rdata (s : State) (e : Event) : (s.event e).rdata = s.rdata := rfl
@[simp] theorem event_stat0 (s : State) (e : Event) : (s.event e).stat0 = s.stat0 := rfl
@[simp] theorem event_stat1 (s : State) (e : Event) : (s.event e).stat1 = s.stat1 := rfl
@[simp] theorem event_rxBits (s : State) (e : Event) : (s.event e).rxBits = s.rxBits := rfl
@[simp] theorem event_rxNbits (s : State) (e : Event) : (s.event e).rxNbits = s.rxNbits := rfl
@[simp] theorem event_txOk (s : State) (e : Event) : (s.event e).txOk = s.txOk := rfl
@[simp] theorem event_residual (s : State) (e : Event) : (s.event e).residual = s.residual := rfl
@[simp] theorem event_done (s : State) (e : Event) : (s.event e).done = s.done := rfl
@[simp] theorem event_err (s : State) (e : Event) : (s.event e).err = s.err := rfl
@[simp] theorem event_errInfo (s : State) (e : Event) : (s.event e).errInfo = s.errInfo := rfl
@[simp] theorem event_errSeq (s : State) (e : Event) : (s.event e).errSeq = s.errSeq := rfl
@[simp] theorem event_cfg (s : State) (e : Event) : (s.event e).cfg = s.cfg := rfl
@[simp] theorem event_host (s : State) (e : Event) : (s.event e).host = s.host := rfl
@[simp] theorem event_env (s : State) (e : Event) : (s.event e).env = s.env := rfl
@[simp] theorem event_tick (s : State) (e : Event) : (s.event e).tick = s.tick := rfl
@[simp] theorem event_trace (s : State) (e : Event) : (s.event e).trace = e :: s.trace := rfl

/-! ### assertCs -/

@[simp] theorem assertCs_csn (s : State) : (assertCs s).csn = false := rfl
@[simp] theorem assertCs_seq (s : State) : (assertCs s).seq = s.seq := rfl
@[simp] theorem assertCs_cfgSel (s : State) : (assertCs s).cfgSel = s.cfgSel := rfl
@[simp] theorem assertCs_cfgIdx (s : State) : (assertCs s).cfgIdx = s.cfgIdx := rfl
@[simp] theorem assertCs_pollCnt (s : State) : (assertCs s).pollCnt = s.pollCnt := rfl
@[simp] theorem assertCs_op (s : State) : (assertCs s).op = s.op := rfl
@[simp] theorem assertCs_addr (s : State) : (assertCs s).addr = s.addr := rfl
@[simp] theorem assertCs_val (s : State) : (assertCs s).val = s.val := rfl
@[simp] theorem assertCs_len (s : State) : (assertCs s).len = s.len := rfl
@[simp] theorem assertCs_wlen (s : State) : (assertCs s).wlen = s.wlen := rfl
@[simp] theorem assertCs_wbuf (s : State) : (assertCs s).wbuf = s.wbuf := rfl
@[simp] theorem assertCs_freqw (s : State) : (assertCs s).freqw = s.freqw := rfl
@[simp] theorem assertCs_sync16 (s : State) : (assertCs s).sync16 = s.sync16 := rfl
@[simp] theorem assertCs_plen (s : State) : (assertCs s).plen = s.plen := rfl
@[simp] theorem assertCs_pbits (s : State) : (assertCs s).pbits = s.pbits := rfl
@[simp] theorem assertCs_frame (s : State) : (assertCs s).frame = s.frame := rfl
@[simp] theorem assertCs_frameLen (s : State) : (assertCs s).frameLen = s.frameLen := rfl
@[simp] theorem assertCs_rbuf (s : State) : (assertCs s).rbuf = s.rbuf := rfl
@[simp] theorem assertCs_rlen (s : State) : (assertCs s).rlen = s.rlen := rfl
@[simp] theorem assertCs_rdata (s : State) : (assertCs s).rdata = s.rdata := rfl
@[simp] theorem assertCs_stat0 (s : State) : (assertCs s).stat0 = s.stat0 := rfl
@[simp] theorem assertCs_stat1 (s : State) : (assertCs s).stat1 = s.stat1 := rfl
@[simp] theorem assertCs_rxBits (s : State) : (assertCs s).rxBits = s.rxBits := rfl
@[simp] theorem assertCs_rxNbits (s : State) : (assertCs s).rxNbits = s.rxNbits := rfl
@[simp] theorem assertCs_txOk (s : State) : (assertCs s).txOk = s.txOk := rfl
@[simp] theorem assertCs_residual (s : State) : (assertCs s).residual = s.residual := rfl
@[simp] theorem assertCs_done (s : State) : (assertCs s).done = s.done := rfl
@[simp] theorem assertCs_err (s : State) : (assertCs s).err = s.err := rfl
@[simp] theorem assertCs_errInfo (s : State) : (assertCs s).errInfo = s.errInfo := rfl
@[simp] theorem assertCs_errSeq (s : State) : (assertCs s).errSeq = s.errSeq := rfl
@[simp] theorem assertCs_cfg (s : State) : (assertCs s).cfg = s.cfg := rfl
@[simp] theorem assertCs_host (s : State) : (assertCs s).host = s.host := rfl
@[simp] theorem assertCs_env (s : State) : (assertCs s).env = s.env := rfl
@[simp] theorem assertCs_tick (s : State) : (assertCs s).tick = s.tick := rfl
@[simp] theorem assertCs_trace (s : State) : (assertCs s).trace = .csLow :: s.trace := rfl

/-! ### releaseCs -/

@[simp] theorem releaseCs_csn (s : State) : (releaseCs s).csn = true := rfl
@[simp] theorem releaseCs_seq (s : State) : (releaseCs s).seq = s.seq := rfl
@[simp] theorem releaseCs_cfgSel (s : State) : (releaseCs s).cfgSel = s.cfgSel := rfl
@[simp] theorem releaseCs_cfgIdx (s : State) : (releaseCs s).cfgIdx = s.cfgIdx := rfl
@[simp] theorem releaseCs_pollCnt (s : State) : (releaseCs s).pollCnt = s.pollCnt := rfl
@[simp] theorem releaseCs_op (s : State) : (releaseCs s).op = s.op := rfl
@[simp] theorem releaseCs_addr (s : State) : (releaseCs s).addr = s.addr := rfl
@[simp] theorem releaseCs_val (s : State) : (releaseCs s).val = s.val := rfl
@[simp] theorem releaseCs_len (s : State) : (releaseCs s).len = s.len := rfl
@[simp] theorem releaseCs_wlen (s : State) : (releaseCs s).wlen = s.wlen := rfl
@[simp] theorem releaseCs_wbuf (s : State) : (releaseCs s).wbuf = s.wbuf := rfl
@[simp] theorem releaseCs_freqw (s : State) : (releaseCs s).freqw = s.freqw := rfl
@[simp] theorem releaseCs_sync16 (s : State) : (releaseCs s).sync16 = s.sync16 := rfl
@[simp] theorem releaseCs_plen (s : State) : (releaseCs s).plen = s.plen := rfl
@[simp] theorem releaseCs_pbits (s : State) : (releaseCs s).pbits = s.pbits := rfl
@[simp] theorem releaseCs_frame (s : State) : (releaseCs s).frame = s.frame := rfl
@[simp] theorem releaseCs_frameLen (s : State) : (releaseCs s).frameLen = s.frameLen := rfl
@[simp] theorem releaseCs_rbuf (s : State) : (releaseCs s).rbuf = s.rbuf := rfl
@[simp] theorem releaseCs_rlen (s : State) : (releaseCs s).rlen = s.rlen := rfl
@[simp] theorem releaseCs_rdata (s : State) : (releaseCs s).rdata = s.rdata := rfl
@[simp] theorem releaseCs_stat0 (s : State) : (releaseCs s).stat0 = s.stat0 := rfl
@[simp] theorem releaseCs_stat1 (s : State) : (releaseCs s).stat1 = s.stat1 := rfl
@[simp] theorem releaseCs_rxBits (s : State) : (releaseCs s).rxBits = s.rxBits := rfl
@[simp] theorem releaseCs_rxNbits (s : State) : (releaseCs s).rxNbits = s.rxNbits := rfl
@[simp] theorem releaseCs_txOk (s : State) : (releaseCs s).txOk = s.txOk := rfl
@[simp] theorem releaseCs_residual (s : State) : (releaseCs s).residual = s.residual := rfl
@[simp] theorem releaseCs_done (s : State) : (releaseCs s).done = s.done := rfl
@[simp] theorem releaseCs_err (s : State) : (releaseCs s).err = s.err := rfl
@[simp] theorem releaseCs_errInfo (s : State) : (releaseCs s).errInfo = s.errInfo := rfl
@[simp] theorem releaseCs_errSeq (s : State) : (releaseCs s).errSeq = s.errSeq := rfl
@[simp] theorem releaseCs_cfg (s : State) : (releaseCs s).cfg = s.cfg := rfl
@[simp] theorem releaseCs_host (s : State) : (releaseCs s).host = s.host := rfl
@[simp] theorem releaseCs_env (s : State) : (releaseCs s).env = s.env := rfl
@[simp] theorem releaseCs_tick (s : State) : (releaseCs s).tick = s.tick := rfl
@[simp] theorem releaseCs_trace (s : State) : (releaseCs s).trace = .csHigh :: s.trace := rfl

/-! ### beginCommand -/

@[simp] theorem beginCommand_csn (op : Byte) (e : Event) (s : State) : (beginCommand op e s).csn = s.csn := rfl
@[simp] theorem beginCommand_seq (op : Byte) (e : Event) (s : State) : (beginCommand op e s).seq = s.seq := rfl
@[simp] theorem beginCommand_cfgSel (op : Byte) (e : Event) (s : State) : (beginCommand op e s).cfgSel = s.cfgSel := rfl
@[simp] theorem beginCommand_cfgIdx (op : Byte) (e : Event) (s : State) : (beginCommand op e s).cfgIdx = s.cfgIdx := rfl
@[simp] theorem beginCommand_pollCnt (op : Byte) (e : Event) (s : State) : (beginCommand op e s).pollCnt = 0 := rfl
@[simp] theorem beginCommand_op (op : Byte) (e : Event) (s : State) : (beginCommand op e s).op = op := rfl
@[simp] theorem beginCommand_addr (op : Byte) (e : Event) (s : State) : (beginCommand op e s).addr = s.addr := rfl
@[simp] theorem beginCommand_val (op : Byte) (e : Event) (s : State) : (beginCommand op e s).val = s.val := rfl
@[simp] theorem beginCommand_len (op : Byte) (e : Event) (s : State) : (beginCommand op e s).len = s.len := rfl
@[simp] theorem beginCommand_wlen (op : Byte) (e : Event) (s : State) : (beginCommand op e s).wlen = s.wlen := rfl
@[simp] theorem beginCommand_wbuf (op : Byte) (e : Event) (s : State) : (beginCommand op e s).wbuf = s.wbuf := rfl
@[simp] theorem beginCommand_freqw (op : Byte) (e : Event) (s : State) : (beginCommand op e s).freqw = s.freqw := rfl
@[simp] theorem beginCommand_sync16 (op : Byte) (e : Event) (s : State) : (beginCommand op e s).sync16 = s.sync16 := rfl
@[simp] theorem beginCommand_plen (op : Byte) (e : Event) (s : State) : (beginCommand op e s).plen = s.plen := rfl
@[simp] theorem beginCommand_pbits (op : Byte) (e : Event) (s : State) : (beginCommand op e s).pbits = s.pbits := rfl
@[simp] theorem beginCommand_frame (op : Byte) (e : Event) (s : State) : (beginCommand op e s).frame = s.frame := rfl
@[simp] theorem beginCommand_frameLen (op : Byte) (e : Event) (s : State) : (beginCommand op e s).frameLen = s.frameLen := rfl
@[simp] theorem beginCommand_rbuf (op : Byte) (e : Event) (s : State) : (beginCommand op e s).rbuf = s.rbuf := rfl
@[simp] theorem beginCommand_rlen (op : Byte) (e : Event) (s : State) : (beginCommand op e s).rlen = s.rlen := rfl
@[simp] theorem beginCommand_rdata (op : Byte) (e : Event) (s : State) : (beginCommand op e s).rdata = s.rdata := rfl
@[simp] theorem beginCommand_stat0 (op : Byte) (e : Event) (s : State) : (beginCommand op e s).stat0 = s.stat0 := rfl
@[simp] theorem beginCommand_stat1 (op : Byte) (e : Event) (s : State) : (beginCommand op e s).stat1 = s.stat1 := rfl
@[simp] theorem beginCommand_rxBits (op : Byte) (e : Event) (s : State) : (beginCommand op e s).rxBits = s.rxBits := rfl
@[simp] theorem beginCommand_rxNbits (op : Byte) (e : Event) (s : State) : (beginCommand op e s).rxNbits = s.rxNbits := rfl
@[simp] theorem beginCommand_txOk (op : Byte) (e : Event) (s : State) : (beginCommand op e s).txOk = s.txOk := rfl
@[simp] theorem beginCommand_residual (op : Byte) (e : Event) (s : State) : (beginCommand op e s).residual = s.residual := rfl
@[simp] theorem beginCommand_done (op : Byte) (e : Event) (s : State) : (beginCommand op e s).done = false := rfl
@[simp] theorem beginCommand_err (op : Byte) (e : Event) (s : State) : (beginCommand op e s).err = .none := rfl
@[simp] theorem beginCommand_errInfo (op : Byte) (e : Event) (s : State) : (beginCommand op e s).errInfo = 0 := rfl
@[simp] theorem beginCommand_errSeq (op : Byte) (e : Event) (s : State) : (beginCommand op e s).errSeq = 0 := rfl
@[simp] theorem beginCommand_cfg (op : Byte) (e : Event) (s : State) : (beginCommand op e s).cfg = s.cfg := rfl
@[simp] theorem beginCommand_host (op : Byte) (e : Event) (s : State) : (beginCommand op e s).host = s.host := rfl
@[simp] theorem beginCommand_env (op : Byte) (e : Event) (s : State) : (beginCommand op e s).env = s.env := rfl
@[simp] theorem beginCommand_tick (op : Byte) (e : Event) (s : State) : (beginCommand op e s).tick = s.tick := rfl
@[simp] theorem beginCommand_trace (op : Byte) (e : Event) (s : State) : (beginCommand op e s).trace = e :: s.trace := rfl

/-! ### complete -/

@[simp] theorem complete_csn (e : ErrCode) (info : Byte) (s : State) : (complete e info s).csn = s.csn := rfl
@[simp] theorem complete_seq (e : ErrCode) (info : Byte) (s : State) : (complete e info s).seq = .idle := rfl
@[simp] theorem complete_cfgSel (e : ErrCode) (info : Byte) (s : State) : (complete e info s).cfgSel = s.cfgSel := rfl
@[simp] theorem complete_cfgIdx (e : ErrCode) (info : Byte) (s : State) : (complete e info s).cfgIdx = s.cfgIdx := rfl
@[simp] theorem complete_pollCnt (e : ErrCode) (info : Byte) (s : State) : (complete e info s).pollCnt = 0 := rfl
@[simp] theorem complete_op (e : ErrCode) (info : Byte) (s : State) : (complete e info s).op = s.op := rfl
@[simp] theorem complete_addr (e : ErrCode) (info : Byte) (s : State) : (complete e info s).addr = s.addr := rfl
@[simp] theorem complete_val (e : ErrCode) (info : Byte) (s : State) : (complete e info s).val = s.val := rfl
@[simp] theorem complete_len (e : ErrCode) (info : Byte) (s : State) : (complete e info s).len = s.len := rfl
@[simp] theorem complete_wlen (e : ErrCode) (info : Byte) (s : State) : (complete e info s).wlen = s.wlen := rfl
@[simp] theorem complete_wbuf (e : ErrCode) (info : Byte) (s : State) : (complete e info s).wbuf = s.wbuf := rfl
@[simp] theorem complete_freqw (e : ErrCode) (info : Byte) (s : State) : (complete e info s).freqw = s.freqw := rfl
@[simp] theorem complete_sync16 (e : ErrCode) (info : Byte) (s : State) : (complete e info s).sync16 = s.sync16 := rfl
@[simp] theorem complete_plen (e : ErrCode) (info : Byte) (s : State) : (complete e info s).plen = s.plen := rfl
@[simp] theorem complete_pbits (e : ErrCode) (info : Byte) (s : State) : (complete e info s).pbits = s.pbits := rfl
@[simp] theorem complete_frame (e : ErrCode) (info : Byte) (s : State) : (complete e info s).frame = s.frame := rfl
@[simp] theorem complete_frameLen (e : ErrCode) (info : Byte) (s : State) : (complete e info s).frameLen = s.frameLen := rfl
@[simp] theorem complete_rbuf (e : ErrCode) (info : Byte) (s : State) : (complete e info s).rbuf = s.rbuf := rfl
@[simp] theorem complete_rlen (e : ErrCode) (info : Byte) (s : State) : (complete e info s).rlen = s.rlen := rfl
@[simp] theorem complete_rdata (e : ErrCode) (info : Byte) (s : State) : (complete e info s).rdata = s.rdata := rfl
@[simp] theorem complete_stat0 (e : ErrCode) (info : Byte) (s : State) : (complete e info s).stat0 = s.stat0 := rfl
@[simp] theorem complete_stat1 (e : ErrCode) (info : Byte) (s : State) : (complete e info s).stat1 = s.stat1 := rfl
@[simp] theorem complete_rxBits (e : ErrCode) (info : Byte) (s : State) : (complete e info s).rxBits = s.rxBits := rfl
@[simp] theorem complete_rxNbits (e : ErrCode) (info : Byte) (s : State) : (complete e info s).rxNbits = s.rxNbits := rfl
@[simp] theorem complete_txOk (e : ErrCode) (info : Byte) (s : State) : (complete e info s).txOk = s.txOk := rfl
@[simp] theorem complete_residual (e : ErrCode) (info : Byte) (s : State) : (complete e info s).residual = s.residual := rfl
@[simp] theorem complete_done (e : ErrCode) (info : Byte) (s : State) : (complete e info s).done = true := rfl
@[simp] theorem complete_err (e : ErrCode) (info : Byte) (s : State) : (complete e info s).err = e := rfl
@[simp] theorem complete_errInfo (e : ErrCode) (info : Byte) (s : State) : (complete e info s).errInfo = if e = .none then 0 else info := rfl
@[simp] theorem complete_errSeq (e : ErrCode) (info : Byte) (s : State) : (complete e info s).errSeq = if e ≠ .none ∧ s.seq ≠ .idle then s.seq.code else 0 := rfl
@[simp] theorem complete_cfg (e : ErrCode) (info : Byte) (s : State) : (complete e info s).cfg = s.cfg := rfl
@[simp] theorem complete_host (e : ErrCode) (info : Byte) (s : State) : (complete e info s).host = s.host := rfl
@[simp] theorem complete_env (e : ErrCode) (info : Byte) (s : State) : (complete e info s).env = s.env := rfl
@[simp] theorem complete_tick (e : ErrCode) (info : Byte) (s : State) : (complete e info s).tick = s.tick := rfl
@[simp] theorem complete_trace (e : ErrCode) (info : Byte) (s : State) : (complete e info s).trace = .done e (if e = .none then 0 else info) :: s.trace := rfl

/-! ### advance -/

@[simp] theorem advance_csn (s : State) : (advance s).csn = s.csn := rfl
@[simp] theorem advance_seq (s : State) : (advance s).seq = s.seq := rfl
@[simp] theorem advance_cfgSel (s : State) : (advance s).cfgSel = s.cfgSel := rfl
@[simp] theorem advance_cfgIdx (s : State) : (advance s).cfgIdx = s.cfgIdx := rfl
@[simp] theorem advance_pollCnt (s : State) : (advance s).pollCnt = s.pollCnt := rfl
@[simp] theorem advance_op (s : State) : (advance s).op = s.op := rfl
@[simp] theorem advance_addr (s : State) : (advance s).addr = s.addr := rfl
@[simp] theorem advance_val (s : State) : (advance s).val = s.val := rfl
@[simp] theorem advance_len (s : State) : (advance s).len = s.len := rfl
@[simp] theorem advance_wlen (s : State) : (advance s).wlen = s.wlen := rfl
@[simp] theorem advance_wbuf (s : State) : (advance s).wbuf = s.wbuf := rfl
@[simp] theorem advance_freqw (s : State) : (advance s).freqw = s.freqw := rfl
@[simp] theorem advance_sync16 (s : State) : (advance s).sync16 = s.sync16 := rfl
@[simp] theorem advance_plen (s : State) : (advance s).plen = s.plen := rfl
@[simp] theorem advance_pbits (s : State) : (advance s).pbits = s.pbits := rfl
@[simp] theorem advance_frame (s : State) : (advance s).frame = s.frame := rfl
@[simp] theorem advance_frameLen (s : State) : (advance s).frameLen = s.frameLen := rfl
@[simp] theorem advance_rbuf (s : State) : (advance s).rbuf = s.rbuf := rfl
@[simp] theorem advance_rlen (s : State) : (advance s).rlen = s.rlen := rfl
@[simp] theorem advance_rdata (s : State) : (advance s).rdata = s.rdata := rfl
@[simp] theorem advance_stat0 (s : State) : (advance s).stat0 = s.stat0 := rfl
@[simp] theorem advance_stat1 (s : State) : (advance s).stat1 = s.stat1 := rfl
@[simp] theorem advance_rxBits (s : State) : (advance s).rxBits = s.rxBits := rfl
@[simp] theorem advance_rxNbits (s : State) : (advance s).rxNbits = s.rxNbits := rfl
@[simp] theorem advance_txOk (s : State) : (advance s).txOk = s.txOk := rfl
@[simp] theorem advance_residual (s : State) : (advance s).residual = s.residual := rfl
@[simp] theorem advance_done (s : State) : (advance s).done = s.done := rfl
@[simp] theorem advance_err (s : State) : (advance s).err = s.err := rfl
@[simp] theorem advance_errInfo (s : State) : (advance s).errInfo = s.errInfo := rfl
@[simp] theorem advance_errSeq (s : State) : (advance s).errSeq = s.errSeq := rfl
@[simp] theorem advance_cfg (s : State) : (advance s).cfg = s.cfg := rfl
@[simp] theorem advance_host (s : State) : (advance s).host = s.host := rfl
@[simp] theorem advance_env (s : State) : (advance s).env = s.env.tail := rfl
@[simp] theorem advance_tick (s : State) : (advance s).tick = s.tick + 1 := rfl
@[simp] theorem advance_trace (s : State) : (advance s).trace = s.trace := rfl

end Sys2Proof.Laws
end

