-- ==== Sys2Proof/Laws/Ops.lean ====
section
/-! SUPPORT. One lemma per shared operation that says everything it can do, and the two ways a
claim about an outcome is carried through an operation: `Sat` (it answers a next state with P) and
`Post` (if it answers a next state, P holds of it). -/

namespace Sys2Proof.Laws

open Sys2Proof.Machine Sys2Proof.Safety

/-- The outcome is a next state, and `P` holds of it. -/
def Sat (P : State → Prop) : Out → Prop
  | .next t => P t
  | .fault _ => False
  | .refused _ => False

/-- If the outcome is a next state, `P` holds of it. -/
def Post (P : State → Prop) : Out → Prop
  | .next t => P t
  | .fault _ => True
  | .refused _ => True

@[simp] theorem sat_next (P : State → Prop) (t : State) : Sat P (.next t) ↔ P t := Iff.rfl
@[simp] theorem sat_fault (P : State → Prop) (r : Fault) : Sat P (.fault r) ↔ False := Iff.rfl
@[simp] theorem post_next (P : State → Prop) (t : State) : Post P (.next t) ↔ P t := Iff.rfl
@[simp] theorem post_fault (P : State → Prop) (r : Fault) : Post P (.fault r) ↔ True := Iff.rfl
@[simp] theorem post_refused (P : State → Prop) (r : Refusal) : Post P (.refused r) ↔ True :=
  Iff.rfl

theorem Sat.exists_next {P : State → Prop} {o : Out} (h : Sat P o) : ∃ t, o = .next t ∧ P t := by
  cases o with
  | next t => exact ⟨t, rfl, h⟩
  | fault r => exact h.elim
  | refused r => exact h.elim

theorem Sat.of_next {P : State → Prop} {o : Out} {t : State} (h : Sat P o) (ho : o = .next t) :
    P t := by subst ho; exact h

theorem Post.of_next {P : State → Prop} {o : Out} {t : State} (h : Post P o) (ho : o = .next t) :
    P t := by subst ho; exact h

theorem post_of_forall {P : State → Prop} {o : Out} (h : ∀ t, o = .next t → P t) : Post P o := by
  cases o with
  | next t => exact h t rfl
  | fault r => trivial
  | refused r => trivial

theorem Sat.mono {P Q : State → Prop} {o : Out} (h : Sat P o) (hpq : ∀ t, P t → Q t) : Sat Q o := by
  cases o with
  | next t => exact hpq t h
  | fault r => exact h
  | refused r => exact h

theorem Post.mono {P Q : State → Prop} {o : Out} (h : Post P o) (hpq : ∀ t, P t → Q t) :
    Post Q o := by
  cases o with
  | next t => exact hpq t h
  | fault r => exact h
  | refused r => exact h

@[simp] theorem sat_advanceOut (P : State → Prop) (o : Out) :
    Sat P (advanceOut o) ↔ Sat (fun t => P (advance t)) o := by cases o <;> rfl

@[simp] theorem post_advanceOut (P : State → Prop) (o : Out) :
    Post P (advanceOut o) ↔ Post (fun t => P (advance t)) o := by cases o <;> rfl

@[simp] theorem advanceOut_next (t : State) : advanceOut (.next t) = .next (advance t) := rfl

/-- What `advanceOut` answering a next state means. -/
theorem advanceOut_eq_next {o : Out} {t : State} :
    advanceOut o = .next t ↔ ∃ u, o = .next u ∧ t = advance u := by
  cases o with
  | next u => simp [eq_comm]
  | fault r => simp [advanceOut]
  | refused r => simp [advanceOut]

/-! ### Inputs -/

@[simp] theorem length_fit (s : State) (n : Nat) (l : List Byte) : (s.fit n l).length = n := by
  simp [State.fit]

/-- An answer of the right length is what is received. -/
theorem fit_of_length (s : State) (l : List Byte) : s.fit l.length l = l := by
  apply List.ext_getElem
  · simp
  · intro k h1 h2
    simp [State.fit, List.getD_eq_getElem?_getD, List.getElem?_eq_getElem h2]

/-- R62: as many bytes are received as are sent. -/
theorem spiAnswer_length {s : State} {n : Nat} {m : List Byte} (h : s.spiAnswer n = some m) :
    m.length = n := by
  unfold State.spiAnswer at h
  split at h
  · cases h; simp
  · split at h
    · cases h
    · cases h; simp

/-- R127: a transaction fails only if SPI_CAN_FAIL and the environment answers so. -/
theorem spiAnswer_eq_none {s : State} {n : Nat} :
    s.spiAnswer n = none ↔ s.input.spi = .fail ∧ s.cfg.spiCanFail = true := by
  unfold State.spiAnswer
  split <;> rename_i h
  · simp [h]
  · simp [h]

/-- R127, R128: a sample fails only if SPI_CAN_FAIL and the environment answers so. -/
theorem gdoAnswer_eq_none {s : State} :
    s.gdoAnswer = none ↔ s.input.gdo = .fail ∧ s.cfg.spiCanFail = true := by
  unfold State.gdoAnswer
  split <;> rename_i h
  · simp [h]
  · simp [h]

/-! ### Completion, acceptance -/

/-- R124 with `e = 0`. -/
theorem complete_none (info : Byte) (s : State) : complete .none info s = ended s := by
  simp [complete, ended]

/-- R124, R290 with `e != 0`; IDLE's own code is 0, so ERRSEQ is SEQ's code in every case. -/
theorem complete_error {e : ErrCode} (h : e ≠ .none) (info : Byte) (s : State) :
    complete e info s = endedWith e info s.seq.code s := by
  simp only [complete, endedWith, h, ne_eq, not_false_eq_true, true_and, if_false]
  by_cases hq : s.seq = .idle <;> simp [hq, FineState.code]

@[simp] theorem finishCommand_eq (s : State) : finishCommand s = .next (ended s) := by
  rw [finishCommand, complete_none]

theorem fail_eq {e : ErrCode} (h : e ≠ .none) (info : Byte) (s : State) :
    fail e info s = .next (endedWith e info s.seq.code s) := by
  rw [fail, complete_error h]

@[simp] theorem goto_eq (q : FineState) (s : State) : goto q s = .next { s with seq := q } := rfl

/-- The verdicts of Check are errors. -/
theorem check_error {cfg : Config} {i : Instr} {e : ErrCode} {info : Byte}
    (h : check cfg i = some (e, info)) : e ≠ .none := by
  cases i <;> simp only [check, checkWriteLength, checkBurstRead, checkPayload] at h
  all_goals first
    | cases h
    | (split at h <;> first | (cases h; done) | (cases h; decide) | (split at h <;> cases h <;> decide))

/-! ### The checks of R123, as propositions -/

/-- R158: when a burst read leaves the byte range. -/
theorem burstOverflows_iff {addr len : Byte} :
    burstOverflows addr len = true ↔ 0xFF < addr.toNat + 8 * len.toNat := by
  rw [burstOverflows, decide_eq_true_iff]; rfl

/-- R123 line 2. -/
theorem checkWriteLength_eq_none {cfg : Config} {n : Byte} :
    checkWriteLength cfg n = none ↔ n.toNat ≤ cfg.wrbMax := by
  unfold checkWriteLength
  split
  · simp; omega
  · simp; omega

/-- R123 lines 3 and 4. -/
theorem checkBurstRead_eq_none {cfg : Config} {addr len : Byte} :
    checkBurstRead cfg addr len = none ↔
      ¬ (cfg.rdbOverflow = .refuse ∧ 0xFF < addr.toNat + 8 * len.toNat) := by
  rw [← burstOverflows_iff, checkBurstRead]
  by_cases h : cfg.rdbOverflow = .refuse ∧ burstOverflows addr len = true
  · rw [if_pos h]
    simp [h]
  · rw [if_neg h]
    simp [h]

/-- R123 lines 3 and 4: the refusal. -/
theorem checkBurstRead_eq_some {cfg : Config} {addr len : Byte}
    (h : cfg.rdbOverflow = .refuse ∧ 0xFF < addr.toNat + 8 * len.toNat) :
    checkBurstRead cfg addr len = some (.range, 2) := by
  rw [← burstOverflows_iff] at h
  rw [checkBurstRead, if_pos h]

/-- R123 lines 5 and 6. -/
theorem checkPayload_eq_none {n : BitVec 16} :
    checkPayload n = none ↔ n.toNat ≤ 496 ∧ n.toNat % 8 = 0 := by
  simp only [checkPayload, maxPayloadBits, frameCapBits, syncBits]
  split
  · simp; omega
  · split
    · simp; omega
    · simp; omega

/-- R242: the same condition, as TX_FRAME tests it. -/
theorem payloadLegal_iff {n : BitVec 16} :
    payloadLegal n = true ↔ n.toNat ≤ 496 ∧ n.toNat % 8 = 0 := by
  simp [payloadLegal, maxPayloadBits, frameCapBits, syncBits]

/-! ### The transaction -/

theorem txn_ok {mosi miso : List Byte} {k : List Byte → State → Out} {s : State}
    (hc : s.csn = true) (ha : s.spiAnswer mosi.length = some miso) :
    txn mosi k s = k miso (afterXfer mosi miso s) := by
  rw [txn, if_pos hc, ha]; rfl

theorem txn_fail {mosi : List Byte} {k : List Byte → State → Out} {s : State}
    (hc : s.csn = true) (ha : s.spiAnswer mosi.length = none) :
    txn mosi k s = .next (endedWith .transport 0 s.seq.code (afterXferFail mosi s)) := by
  rw [txn, if_pos hc, ha]
  exact fail_eq (by decide) _ _

theorem txn_sat {P : State → Prop} {mosi : List Byte} {k : List Byte → State → Out} {s : State}
    (hc : s.csn = true)
    (hok : ∀ m, m.length = mosi.length → Sat P (k m (afterXfer mosi m s)))
    (hfail : P (endedWith .transport 0 s.seq.code (afterXferFail mosi s))) :
    Sat P (txn mosi k s) := by
  cases ha : s.spiAnswer mosi.length with
  | some m => rw [txn_ok hc ha]; exact hok m (spiAnswer_length ha)
  | none => rw [txn_fail hc ha]; exact hfail

theorem txn_post {P : State → Prop} {mosi : List Byte} {k : List Byte → State → Out} {s : State}
    (hok : ∀ m, m.length = mosi.length → Post P (k m (afterXfer mosi m s)))
    (hfail : P (endedWith .transport 0 s.seq.code (afterXferFail mosi s))) :
    Post P (txn mosi k s) := by
  cases hc : s.csn with
  | false => simp [txn, hc]
  | true =>
    cases ha : s.spiAnswer mosi.length with
    | some m => rw [txn_ok hc ha]; exact hok m (spiAnswer_length ha)
    | none => rw [txn_fail hc ha]; exact hfail

/-! ### The sample, the poll, the delay -/

theorem gdoSample_ok {k : Bool → State → Out} {s : State} {g : Bool} (h : s.gdoAnswer = some g) :
    gdoSample k s = k g (s.event (.gdo g)) := by rw [gdoSample, h]

theorem gdoSample_fail {k : Bool → State → Out} {s : State} (h : s.gdoAnswer = none) :
    gdoSample k s = .next (endedWith .transport 0 s.seq.code (s.event .gdoFail)) := by
  rw [gdoSample, h]
  exact fail_eq (by decide) _ _

theorem gdoSample_sat {P : State → Prop} {k : Bool → State → Out} {s : State}
    (hok : ∀ g, Sat P (k g (s.event (.gdo g))))
    (hfail : P (endedWith .transport 0 s.seq.code (s.event .gdoFail))) :
    Sat P (gdoSample k s) := by
  cases h : s.gdoAnswer with
  | some g => rw [gdoSample_ok h]; exact hok g
  | none => rw [gdoSample_fail h]; exact hfail

theorem gdoSample_post {P : State → Prop} {k : Bool → State → Out} {s : State}
    (hok : ∀ g, Post P (k g (s.event (.gdo g))))
    (hfail : P (endedWith .transport 0 s.seq.code (s.event .gdoFail))) :
    Post P (gdoSample k s) := by
  cases h : s.gdoAnswer with
  | some g => rw [gdoSample_ok h]; exact hok g
  | none => rw [gdoSample_fail h]; exact hfail

theorem rd1_ok {addr : Byte} {k : Byte → State → Out} {s : State} {miso : List Byte}
    (hc : s.csn = true) (ha : s.spiAnswer 2 = some miso) :
    rd1 addr k s = k (miso.getD 1 0) (afterXfer (rd1Mosi addr) miso s) := by
  rw [rd1, txn_ok hc (mosi := rd1Mosi addr) ha]

/-- R129: the four ways a poll step goes on, in the order of R294. -/
theorem pollStep_cancel {α : Type} {k : PollKind} {poll : (α → State → Out) → State → Out}
    {sat : α → Bool} {next stay : FineState} {s : State} (h : s.abortRequested = true) :
    pollStep k poll sat next stay s = .next (endedWith .cancelled k.code s.seq.code s) := by
  rw [pollStep, if_pos h]
  exact fail_eq (by decide) _ _

theorem pollStep_timeout {α : Type} {k : PollKind} {poll : (α → State → Out) → State → Out}
    {sat : α → Bool} {next stay : FineState} {s : State} (h : s.abortRequested = false)
    (hl : limitReached (k.limit s.cfg) s.pollCnt = true) :
    pollStep k poll sat next stay s = .next (endedWith .timeout k.code s.seq.code s) := by
  rw [pollStep, if_neg (by simp [h]), if_pos hl]
  exact fail_eq (by decide) _ _

theorem pollStep_poll {α : Type} {k : PollKind} {poll : (α → State → Out) → State → Out}
    {sat : α → Bool} {next stay : FineState} {s : State} (h : polls k s = true) :
    pollStep k poll sat next stay s =
      poll (fun v t =>
        if sat v then .next { t with pollCnt := 0, seq := next }
        else .next { t with pollCnt := t.pollCnt + 1, seq := stay }) s := by
  simp only [polls, Bool.and_eq_true, Bool.not_eq_true'] at h
  rw [pollStep, if_neg (by simp [h.1]), if_neg (by simp [h.2])]
  rfl

theorem pollStep_split {α : Type} (Q : Out → Prop) {k : PollKind}
    {poll : (α → State → Out) → State → Out} {sat : α → Bool} {next stay : FineState} {s : State}
    (hc : Q (.next (endedWith .cancelled k.code s.seq.code s)))
    (ht : Q (.next (endedWith .timeout k.code s.seq.code s)))
    (hp : polls k s = true → Q (poll (fun v t =>
        if sat v then .next { t with pollCnt := 0, seq := next }
        else .next { t with pollCnt := t.pollCnt + 1, seq := stay }) s)) :
    Q (pollStep k poll sat next stay s) := by
  cases ha : s.abortRequested with
  | true => rw [pollStep_cancel ha]; exact hc
  | false =>
    cases hl : limitReached (k.limit s.cfg) s.pollCnt with
    | true => rw [pollStep_timeout ha hl]; exact ht
    | false =>
      have h : polls k s = true := by simp [polls, ha, hl]
      rw [pollStep_poll h]; exact hp h

@[simp] theorem delayThen_eq (ms : Nat) (next : FineState) (s : State) :
    delayThen ms next s = .next { s with seq := next, trace := .delay ms :: s.trace } := rfl

end Sys2Proof.Laws
end

