-- ==== Sys2Proof/Laws/PerInstr.lean ====
section
/-! SUPPORT. What holds of every command as syntax: its record carries its opcode, which is one of
the ten of 30_encoding.md R96, and its mnemonic is the one that rule gives that opcode. One lemma
per constructor. -/

namespace Sys2Proof.Laws.Opcode

/-- R96: opcode and mnemonic, row by row. -/
def table : List (Byte × String) :=
  [(0x01, "WR1"), (0x02, "RD1"), (0x03, "WRB"), (0x04, "RDB"), (0x05, "STB"), (0x10, "INIT"),
   (0x11, "CFGRX"), (0x12, "CFGTX"), (0x20, "RXPKT"), (0x21, "TXPKT")]

/-- The record's opcode is the command's, and the two stand together in the table of R96. -/
def Statement (i : Instr) : Prop :=
  (encode i).op = i.opcode ∧ (i.opcode, i.mnemonic) ∈ table

theorem wr1 (addr val : Byte) : Statement (.wr1 addr val) := by
  simp [Statement, encode, blankRecord, Instr.opcode, Instr.mnemonic, table]

theorem rd1 (addr : Byte) : Statement (.rd1 addr) := by
  simp [Statement, encode, blankRecord, Instr.opcode, Instr.mnemonic, table]

theorem wrb (addr wlen : Byte) (wbuf : List Byte) : Statement (.wrb addr wlen wbuf) := by
  simp [Statement, encode, blankRecord, Instr.opcode, Instr.mnemonic, table]

theorem rdb (addr len : Byte) : Statement (.rdb addr len) := by
  simp [Statement, encode, blankRecord, Instr.opcode, Instr.mnemonic, table]

theorem stb (addr : Byte) : Statement (.stb addr) := by
  simp [Statement, encode, blankRecord, Instr.opcode, Instr.mnemonic, table]

theorem init (freqw : BitVec 24) (sync16 : BitVec 16) : Statement (.init freqw sync16) := by
  simp [Statement, encode, blankRecord, Instr.opcode, Instr.mnemonic, table]

theorem cfgrx : Statement .cfgrx := by
  simp [Statement, encode, blankRecord, Instr.opcode, Instr.mnemonic, table]

theorem cfgtx : Statement .cfgtx := by
  simp [Statement, encode, blankRecord, Instr.opcode, Instr.mnemonic, table]

theorem rxpkt (len : Byte) : Statement (.rxpkt len) := by
  simp [Statement, encode, blankRecord, Instr.opcode, Instr.mnemonic, table]

theorem txpkt (sync16 plen : BitVec 16) (pbits : BitString) :
    Statement (.txpkt sync16 plen pbits) := by
  simp [Statement, encode, blankRecord, Instr.opcode, Instr.mnemonic, table]

end Sys2Proof.Laws.Opcode
end

