-- ==== Sys2Proof/Laws/Step.lean ====
section
/-! SUPPORT. The three branches of a step, its inputs, and the one rejection of the decoder. -/

namespace Sys2Proof.Laws

open Sys2Proof.Machine

/-- R132: a scripted input is the step's input. -/
theorem input_of_cons {s : State} {i : StepInput} {r : List StepInput} (h : s.env = i :: r) :
    s.input = i := by simp [State.input, h]

theorem step_of_rst {s : State} (h : s.input.rst = true) : step s = .next (advance (onReset s)) := by
  rw [step, if_pos h]

theorem step_of_idle {s : State} (h : s.input.rst = false) (hq : s.seq = .idle) :
    step s = advanceOut (idleStep s) := by
  rw [step, if_neg (by simp [h]), if_pos hq]

theorem step_of_busy {s : State} (h : s.input.rst = false) (hq : s.seq ≠ .idle) :
    step s = advanceOut (busyStep s) := by
  rw [step, if_neg (by simp [h]), if_neg hq]

/-- A property of a step that is not a reset comes from one of the two other branches. -/
theorem step_post {P Q : State → Prop} {s : State} (h : s.input.rst = false)
    (hi : s.seq = .idle → Post P (idleStep s)) (hb : s.seq ≠ .idle → Post P (busyStep s))
    (hpq : ∀ t, P t → Q (advance t)) : Post Q (step s) := by
  by_cases hq : s.seq = .idle
  · rw [step_of_idle h hq, post_advanceOut]
    exact (hi hq).mono hpq
  · rw [step_of_busy h hq, post_advanceOut]
    exact (hb hq).mono hpq

/-- The rejected opcode is the record's. -/
theorem reserved_op {c : Record} {op : Byte} (h : decode c = .error (.reservedOp op)) :
    op = c.op := by
  unfold decode at h
  repeat' split at h
  all_goals cases h
  rfl

/-- A running command is not in IDLE. -/
theorem running_not_idle {s : State} {i : Instr} (h : s.running = some i) : s.seq ≠ .idle := by
  intro hq
  simp [State.running, hq] at h

/-- R187, R190: the one step of CFG_WRITE is the same whichever profile it applies. -/
theorem busyStep_cfgWrite {s : State} (hq : s.seq = .cfgWrite) : busyStep s = cfgWriteStep s := by
  simp only [busyStep, State.running, hq]
  cases h : s.cfgSel <;> simp [exec, execCfgrx, execCfgtx, hq, h]

end Sys2Proof.Laws
end

