-- ==== Sys2Proof/Tests/Slice0.lean ====
section
/-! SUPPORT. Tests: well-formedness, words written out from the spec's encodings, the vectors of
95_test_vectors.md, and for every obligation with hypotheses a concrete state and operands that meet
them all. Expected results are the spec's, named beside each. -/

namespace Sys2Proof.Tests

open Sys2Proof.Machine Sys2Proof.Safety

/-! ### Helpers -/

/-- Concrete parameters: finite limits, an abort input, a link that can fail, a burst read that
refuses to leave the byte range. -/
def cfg : Config where
  map := RegMap.offered
  profileRx := [(0x02, 0x06), (0x08, 0x05)]
  profileTx := [(0x02, 0x2E)]
  patable := bufferOf 0 8 [0xC0]
  xtalHz := 26000000
  freqOverflow := .reject
  rdbOverflow := .refuse
  pollLimitEdge := .polls 3
  pollLimitMarc := .polls 2
  pollLimitDrain := .polls 2
  hasAbort := true
  spiCanFail := true
  wrbMax := 64
  baudHz := 38400

/-- The chip answers `m`, the line is at `g`. -/
def reply (m : List Byte) (g : Bool) : StepInput :=
  { rst := false, abortReq := false, spi := .ok m, gdo := .ok g }

/-- Idle, with the answer of the coming step. -/
def idle (m : List Byte) : State := { State.reset with cfg := cfg, env := [reply m false] }

/-- In a fine state, with the operation latched. -/
def busy (q : FineState) (op : Byte) (m : List Byte) : State := { idle m with seq := q, op := op }

/-- A command presented to the idle block. -/
def presented (c : Record) (m : List Byte) : State := { idle m with host := [some c, none] }

/-- INIT: FREQW 0x10B071 in bytes 69 to 71 and SYNC16 0x1234 in bytes 72 and 73, high byte first,
the opcode in byte 0. -/
abbrev initWord : Nat :=
  0x341271b010000000000000000000000000000000000000000000000000000000000000000000000000000000000000000000000000000000000000000000000000000000000000000010

/-- TXPKT: SYNC16 0x1234 in bytes 72 and 73, PLEN 8 in bytes 74 and 75, the payload 11001100 in byte
76, the opcode in byte 0. -/
abbrev txpktWord : Nat :=
  0xcc08003412000000000000000000000000000000000000000000000000000000000000000000000000000000000000000000000000000000000000000000000000000000000000000000000021

/-- One fact about a next state. -/
def after {α : Type} (f : State → α) : Out → Option α
  | .next t => some (f t)
  | .fault _ => none
  | .refused _ => none

/-- The frames sent, the error, its detail, its state. -/
def report (t : State) : List (List Byte) × ErrCode × Byte × BitVec 6 :=
  (sentFrames t.trace, t.err, t.errInfo, t.errSeq)

/-! ### Well-formedness -/

theorem test_wrb_short_buffer_refused : (Instr.wrb 0x3F 2 [0xAA]).wellFormed = false := by decide
theorem test_wrb_long_buffer_refused : (Instr.wrb 0x3F 0 [0xAA]).wellFormed = false := by decide
theorem test_wrb_accepted : (Instr.wrb 0x3F 2 [0xAA, 0x12]).wellFormed = true := by decide
theorem test_txpkt_short_payload_refused :
    (Instr.txpkt 0x1234 8 [true]).wellFormed = false := by decide
theorem test_txpkt_long_payload_refused :
    (Instr.txpkt 0x1234 0 [true]).wellFormed = false := by decide
theorem test_txpkt_accepted :
    (Instr.txpkt 0x1234 2 [true, false]).wellFormed = true := by decide

/-! ### Decoding: the opcodes of 30_encoding.md R96, operands in the layout of log 11 -/

theorem test_decode_wr1 : decodeTableWord 24 0x400601 = some (.wr1 0x06 0x40) := by decide
theorem test_decode_rd1 : decodeTableWord 16 0x0602 = some (.rd1 0x06) := by decide
theorem test_decode_wrb :
    decodeTableWord 56 0x12AA0200003F03 = some (.wrb 0x3F 2 [0xAA, 0x12]) := by decide
theorem test_decode_rdb : decodeTableWord 32 0x02003F04 = some (.rdb 0x3F 2) := by decide
theorem test_decode_stb : decodeTableWord 16 0x3605 = some (.stb 0x36) := by decide
theorem test_decode_init :
    decodeTableWord 592 initWord = some (.init 0x10B071 0x1234) := by
  decide +kernel
theorem test_decode_cfgrx : decodeTableWord 8 0x11 = some .cfgrx := by decide
theorem test_decode_cfgtx : decodeTableWord 8 0x12 = some .cfgtx := by decide
theorem test_decode_rxpkt : decodeTableWord 32 0x02000020 = some (.rxpkt 2) := by decide
theorem test_decode_txpkt :
    decodeTableWord 616 txpktWord =
      some (.txpkt 0x1234 8 [true, true, false, false, true, true, false, false]) := by
  decide +kernel
theorem test_decode_reserved : decodeTableWord 8 0x00 = none ∧ decodeTableWord 8 0xFF = none := by
  decide

/-- R101. -/
theorem test_pseudo_commands :
    Pseudo.expand RegMap.offered .sidle = .stb 0x36 ∧
    Pseudo.expand RegMap.offered .setupRX = .cfgrx ∧
    Pseudo.expand RegMap.offered (.receiveData 2) = .rxpkt 2 := by decide

/-! ### The five transactions -/

/-- V-SPI-1. -/
theorem test_wr1 :
    after report (exec (.wr1 0x06 0x40)
      { busy .prim 0x01 [0x00, 0x0F] with addr := 0x06, val := 0x40 }) =
    some ([[0x06, 0x40]], .none, 0, 0) := by decide

/-- V-SPI-4. -/
theorem test_rd1 :
    after (fun t => (sentFrames t.trace, t.rdata))
      (exec (.rd1 0x06) { busy .prim 0x02 [0x0F, 0x40] with addr := 0x06 }) =
    some ([[0x86, 0x00]], 0x40) := by decide

/-- V-SPI-22. -/
theorem test_rd1_transport_failure :
    after (fun t => (report t, t.rdata, t.csn))
      (exec (.rd1 0x06)
        { busy .prim 0x02 [] with
          addr := 0x06
          env := [{ rst := false, abortReq := false, spi := .fail, gdo := .fail }] }) =
    some (([[0x86, 0x00]], .transport, 0, 0x01), 0, true) := by decide

/-- V-SPI-7. -/
theorem test_wrb :
    after report (exec (.wrb 0x3F 2 [0xAA, 0x12])
      { busy .prim 0x03 [0, 0, 0] with addr := 0x3F, wlen := 2, wbuf := bufferOf 0 64 [0xAA, 0x12] }) =
    some ([[0x7F, 0xAA, 0x12]], .none, 0, 0) := by decide

/-- V-SPI-10. -/
theorem test_wrb_too_long :
    after report (exec (.wrb 0x3F 65 (List.replicate 64 0)) (idle [])) =
    some ([], .range, 1, 0) := by decide

/-- V-SPI-11. -/
theorem test_rdb :
    after (fun t => (sentFrames t.trace, t.rbuf.toList.take 3, t.rlen))
      (exec (.rdb 0x3F 2) { busy .prim 0x04 [0x42, 0x5A, 0xF0] with addr := 0x3F, len := 2 }) =
    some ([[0xFF, 0xC7, 0xCF]], [0x42, 0x5A, 0xF0], 3) := by decide

/-- V-SPI-19. -/
theorem test_rdb_refused : after report (exec (.rdb 0xF5 2) (idle [])) = some ([], .range, 2, 0) := by
  decide

/-- V-SPI-15, V-SPI-17: the last two address bytes. -/
theorem test_rdb_boundary :
    (rdbMosi 0x3F 24).drop 23 = [0xF7, 0xFF] ∧ (rdbMosi 0x3F 25).drop 24 = [0xFF, 0xC7] ∧
    checkBurstRead cfg 0x3F 24 = none ∧ checkBurstRead cfg 0x3F 25 = some (.range, 2) := by
  decide

/-- V-SPI-20. -/
theorem test_stb :
    after (fun t => (sentFrames t.trace, t.stat0, t.stat1))
      (exec (.stb 0x36) { busy .prim 0x05 [0x0F, 0x1F] with addr := 0x36 }) =
    some ([[0x36, 0x00]], 0x0F, 0x1F) := by decide

/-! ### INIT, CFGRX, CFGTX and the host helpers -/

/-- R185, V-FW-1: FREQ2 of 433.92 MHz. -/
theorem test_init_freq2 :
    after (fun t => (sentFrames t.trace, t.seq))
      (exec (.init 0x10B071 0x1234)
        { busy .initWrFreq2 0x10 [0, 0] with freqw := 0x10B071, sync16 := 0x1234 }) =
    some ([[0x0D, 0x10]], .initWrFreq1) := by decide

/-- R186: PATABLE as one nine-byte burst. -/
theorem test_init_patable :
    after (fun t => sentFrames t.trace)
      (exec (.init 0 0) (busy .initWrbPatable 0x10 [0, 0, 0, 0, 0, 0, 0, 0, 0])) =
    some [[0x7E, 0xC0, 0, 0, 0, 0, 0, 0, 0]] := by decide

/-- R189: the second pair, then the end with no transaction. -/
theorem test_cfgrx :
    after (fun t => (sentFrames t.trace, t.cfgIdx, t.seq))
      (exec .cfgrx { busy .cfgWrite 0x11 [0, 0] with cfgIdx := 1 }) =
        some ([[0x08, 0x05]], 2, .cfgWrite) ∧
    after (fun t => (report t, t.done)) (exec .cfgrx { busy .cfgWrite 0x11 [] with cfgIdx := 2 }) =
      some (([], .none, 0, 0), true) := by decide

/-- R190. -/
theorem test_cfgtx :
    after (fun t => (sentFrames t.trace, t.cfgIdx))
      (exec .cfgtx { busy .cfgWrite 0x12 [0, 0] with cfgSel := .tx }) =
    some ([[0x02, 0x2E]], 1) := by decide

/-- V-FW-1, V-FW-3, V-FW-7, V-FW-8. -/
theorem test_freq_word :
    freqWord cfg 433920000 1 0 = .ok 0x10B071 ∧ freqWord cfg 433920000 1 (-5) = .ok 0x10B06C ∧
    freqWord cfg 315000000 1 0 = .ok 0x0C1D8A ∧ freqWord cfg 199 1 0 = .ok 1 := by decide

/-- V-FW-9, V-FW-11, V-FW-12. -/
theorem test_freq_word_range :
    freqWord cfg 0 1 (-1) = .error { err := .range, info := 3 } ∧
    freqWord { cfg with freqOverflow := .truncate } 6655999802 1 0 = .ok 0 ∧
    freqWord { cfg with freqOverflow := .clamp } 6655999802 1 0 = .ok 0xFFFFFF ∧
    freqWord cfg 6655999801 1 0 = .ok 0xFFFFFF ∧
    freqWord { cfg with xtalHz := 131072 } 5 1 0 = .ok 2 := by decide

/-- V-SY-2, V-SY-3, V-SY-4, V-SY-5. -/
theorem test_parse_sync :
    parseSync4 ['d', '3', '9', '1'] = .ok 0xD391 ∧ parseSync4 ['D', '3', '9', '1'] = .ok 0xD391 ∧
    parseSync4 ['0', '0', '0', '1'] = .ok 0x0001 ∧
    parseSync4 ['1', '2', '3'] = .error { err := .syncFmt, info := 0 } ∧
    parseSync4 ['1', '2', 'G', '4'] = .error { err := .syncFmt, info := 0 } := by decide

/-! ### RXPKT -/

/-- S6, V-RX-1. -/
theorem test_rxpkt_read :
    after (fun t => (sentFrames t.trace, t.rxBits, t.rxNbits))
      (exec (.rxpkt 2) { busy .rxRdbFifo 0x20 [0x42, 0x5A, 0xF0] with len := 2 }) =
    some ([[0xFF, 0xC7, 0xCF]],
      [false, true, false, true, true, false, true, false,
       true, true, true, true, false, false, false, false], 16) := by decide

/-- V-RX-10, V-RX-12: the limit, and the abort before it. -/
theorem test_rxpkt_wait :
    after report (exec (.rxpkt 2) { busy .rxWaitRise 0x20 [] with len := 2, pollCnt := 3 }) =
      some ([], .timeout, 1, 0x22) ∧
    after report (exec (.rxpkt 2)
      { busy .rxWaitRise 0x20 [] with
        len := 2, pollCnt := 3, env := [{ reply [] false with abortReq := true }] }) =
      some ([], .cancelled, 1, 0x22) := by decide

/-- V-RX-8. -/
theorem test_marc_idle :
    [0x01, 0x21, 0xE1, 0x00, 0x0D, 0x11, 0x1F].map marcIsIdle =
      [true, true, true, false, false, false, false] := by decide

/-! ### TXPKT -/

/-- S7, V-TX-1, V-TX-3. -/
theorem test_frame :
    frameBytes 0x1234 [true, true, false, false, true, true, false, false] =
      List.replicate 61 0xAA ++ [0x12, 0x34, 0xCC] ∧
    frameBytes 0xD391 (unpack [0x5A, 0xF0]) = List.replicate 60 0xAA ++ [0xD3, 0x91, 0x5A, 0xF0] := by
  decide +kernel

/-- R259: three bytes left, bit 7 of the register not counted. -/
theorem test_txpkt_underflow :
    after (fun t => (report t, t.residual, t.txOk))
      (exec (.txpkt 0 0 []) (busy .txCheck 0x21 [0x0F, 0x83])) =
    some (([[0xFA, 0x00]], .txUnderflow, 3, 0x3D), 3, false) := by decide

/-- R123 lines 5 and 6: the size is tested first. -/
theorem test_txpkt_refused :
    after report (exec (.txpkt 0 497 (List.replicate 496 false)) (idle [])) =
      some ([], .oversize, 0, 0) ∧
    after report (exec (.txpkt 0 9 (List.replicate 9 false)) (idle [])) =
      some ([], .align, 1, 0) := by decide

/-! ### Reserved opcodes and the port -/

/-- V-CTL, R282. -/
theorem test_reserved_opcode :
    after (fun t => (report t, t.done, t.op)) (step (presented (blankRecord 0x06) [])) =
    some (([], .illegal, 6, 0), true, 6) := by decide

/-! ### Witnesses: for each obligation with hypotheses, an input that meets them -/

/-- An input that asserts `rst`. -/
def rstInput : StepInput := { reply [] false with rst := true }
/-- An input in which both answers fail. -/
def failInput : StepInput := { rst := false, abortReq := false, spi := .fail, gdo := .fail }
/-- An input that asks for an abort. -/
def abortInput : StepInput := { reply [] false with abortReq := true }

/-- The record of a WR1. -/
def wr1Record : Record := encode (.wr1 0x06 0x40)

theorem witness_decode_exactly :
    decode wr1Record = .ok (.wr1 0x06 0x40) ∧
    wr1Record.op.toNat ∈ [0x01, 0x02, 0x03, 0x04, 0x05, 0x10, 0x11, 0x12, 0x20, 0x21] ∧
    (blankRecord 0x22).op.toNat ∉
      [0x01, 0x02, 0x03, 0x04, 0x05, 0x10, 0x11, 0x12, 0x20, 0x21] := by decide

/-- For DecodeOfEncode and RecordSurvivesItsBytes: a WLEN past the buffer is well formed. -/
theorem witness_well_formed :
    (Instr.wrb 0x3F 65 (List.replicate 64 0xAA)).wellFormed = true ∧
    (Instr.txpkt 0x1234 0 []).wellFormed = true := by decide

theorem witness_decoded : decodeBytes [0x01, 0x06, 0x40] = .ok (.wr1 0x06 0x40) := by decide

/-- For DecodedIsWellFormed, second clause: records that differ in the fields WR1 does not read, and
records that differ in WBUF past WLEN. -/
theorem witness_operands_agree :
    OperandsAgree wr1Record { wr1Record with len := 0xFF, plen := 8 } ∧
    OperandsAgree (encode (.wrb 0x3F 1 [0xAA]))
      { encode (.wrb 0x3F 1 [0xAA]) with wbuf := bufferOf 0 64 [0xAA, 0x55] } := by
  constructor
  · constructor <;> first | exact fun _ => ⟨rfl, rfl⟩ | decide
  · constructor
    case wrb =>
      refine fun _ => ⟨rfl, rfl, fun k _ hk => ?_⟩
      obtain rfl : k = 0 := Nat.lt_one_iff.mp hk
      rfl
    all_goals decide

/-- For StepAcceptsThePresented. -/
theorem witness_presented :
    let s := presented wr1Record []
    s.input.rst = false ∧ s.seq = .idle ∧ s.host = some wr1Record :: [none] ∧
    decode wr1Record = .ok (.wr1 0x06 0x40) := ⟨rfl, rfl, rfl, rfl⟩

/-- For StepRunsTheRunning. -/
theorem witness_running :
    (busy .prim 0x05 []).input.rst = false ∧
    (busy .prim 0x05 []).running = some (.stb 0) := by decide

/-- For FetchWordRunsNext. -/
theorem witness_fetch : decodeTableWord 24 0x400601 = some (.wr1 0x06 0x40) := by decide

/-- For IdleWithoutCommandChangesNothing, both clauses. -/
theorem witness_no_command :
    (idle []).input.rst = false ∧ (idle []).seq = .idle ∧ (idle []).host = [] ∧
    { idle [] with host := [none] }.host = none :: [] := ⟨rfl, rfl, rfl, rfl⟩

/-- For ReservedOpcodeCompletes, at an opcode next to a defined one. -/
theorem witness_reserved :
    let s := presented (blankRecord 0x06) []
    s.input.rst = false ∧ s.seq = .idle ∧ s.host = some (blankRecord 0x06) :: [none] ∧
    (blankRecord 0x06).op.toNat ∉
      [0x01, 0x02, 0x03, 0x04, 0x05, 0x10, 0x11, 0x12, 0x20, 0x21] :=
  ⟨rfl, rfl, rfl, by decide⟩

/-- For BusyStepKeepsThePort: a step in PRIM with a command waiting at the port. -/
theorem witness_busy_step :
    let s := { busy .prim 0x05 [0, 0] with host := [some wr1Record] }
    s.seq ≠ .idle ∧ ∃ t, step s = .next t := ⟨by decide, _, rfl⟩

/-- For HeldOffCommandChangesNothing: WR1 presented while STB runs. -/
theorem witness_held_off :
    (busy .prim 0x05 []).seq ≠ .idle ∧
    ∀ j, (busy .prim 0x05 []).running = some j → j.opcode ≠ (Instr.wr1 0 0).opcode := by
  refine ⟨by decide, fun j hj => ?_⟩
  have h : (busy .prim 0x05 []).running = some (.stb 0) := witness_running.2
  rw [h] at hj
  cases hj
  decide

theorem witness_reset : { busy .txCheck 0x21 [] with env := [rstInput] }.input.rst = true := by
  decide

/-- For the Accept statements: both sides of each bound. -/
theorem witness_accept :
    (idle []).seq = .idle ∧
    (64 : Byte).toNat ≤ (idle []).cfg.wrbMax ∧ (idle []).cfg.wrbMax < (65 : Byte).toNat ∧
    ¬ ((idle []).cfg.rdbOverflow = .refuse ∧ 0xFF < (0x3F : Byte).toNat + 8 * (24 : Byte).toNat) ∧
    ((idle []).cfg.rdbOverflow = .refuse ∧ 0xFF < (0x3F : Byte).toNat + 8 * (25 : Byte).toNat) ∧
    ¬ ((idle []).cfg.rdbOverflow = .refuse ∧
      0xFF < (idle []).cfg.map.rxfifo.toNat + 8 * (24 : Byte).toNat) ∧
    ((idle []).cfg.rdbOverflow = .refuse ∧
      0xFF < (idle []).cfg.map.rxfifo.toNat + 8 * (25 : Byte).toNat) ∧
    496 < (497 : BitVec 16).toNat ∧
    ((495 : BitVec 16).toNat ≤ 496 ∧ (495 : BitVec 16).toNat % 8 ≠ 0) ∧
    ((496 : BitVec 16).toNat ≤ 496 ∧ (496 : BitVec 16).toNat % 8 = 0) := by decide

/-- For OverwriteReplacesExactlyTheFirst: entry 1 of 4, below and past the new list. -/
theorem witness_overwrite :
    1 < 4 ∧ 1 < [true, true].length ∧ [true].length ≤ 1 := by decide

theorem witness_wr1 :
    let s := { busy .prim opWr1 [0, 0] with addr := 0x06, val := 0x40 }
    s.seq = .prim ∧ s.op = opWr1 ∧ s.csn = true ∧ s.addr = 0x06 ∧ s.val = 0x40 ∧
    s.spiAnswer 2 = some [0, 0] := by decide

theorem witness_rd1 :
    let s := { busy .prim opRd1 [0x0F, 0x40] with addr := 0x06 }
    s.seq = .prim ∧ s.op = opRd1 ∧ s.csn = true ∧ s.addr = 0x06 ∧
    s.spiAnswer 2 = some [0x0F, 0x40] := by decide

/-- The empty payload, at the lower bound of WLEN. -/
theorem witness_wrb :
    let s := { busy .prim opWrb [0] with addr := 0x3E, wlen := 0 }
    s.seq = .prim ∧ s.op = opWrb ∧ s.csn = true ∧ s.addr = 0x3E ∧ s.wlen = 0 ∧
    s.wlen.toNat ≤ 64 ∧ s.wbuf.toList.take s.wlen.toNat = [] ∧
    s.spiAnswer (s.wlen.toNat + 1) = some [0] := by decide

/-- For ReadBurstTransaction and BurstReadAddressBytes: the greatest legal sum, 0xFF. -/
theorem witness_rdb :
    let s := { busy .prim opRdb [0x0F, 1] with addr := 0xF7, len := 1 }
    s.seq = .prim ∧ s.op = opRdb ∧ s.csn = true ∧ s.addr = 0xF7 ∧ s.len = 1 ∧
    ¬ (s.cfg.rdbOverflow = .refuse ∧ 0xFF < s.addr.toNat + 8 * s.len.toNat) ∧
    s.addr.toNat + 8 * s.len.toNat ≤ 0xFF ∧ 1 ≤ s.len.toNat ∧
    s.spiAnswer (s.len.toNat + 1) = some [0x0F, 1] := by decide

theorem witness_stb :
    let s := { busy .prim opStb [0x0F, 0x1F] with addr := 0x36 }
    s.seq = .prim ∧ s.op = opStb ∧ s.csn = true ∧ s.addr = 0x36 ∧
    s.spiAnswer 2 = some [0x0F, 0x1F] := by decide

/-- A running STB in a safe state, the chip not answering. -/
def failing : State :=
  { busy .prim opStb [] with rlen := 0, env := [failInput] }

theorem witness_safe_state : SafeState failing := by
  constructor <;> decide

/-- RXPKT at the edge wait, the sample failing. -/
def failingSample : State := { busy .rxWaitRise opRxpkt [] with len := 2, env := [failInput] }

theorem witness_safe_sample : SafeState failingSample := by
  constructor <;> decide

/-- For TransportFailureEndsCommand, last clause: the same STB on a link that cannot fail. -/
theorem witness_no_transport :
    let s := { failing with cfg := { cfg with spiCanFail := false } }
    s.cfg.spiCanFail = false ∧ ∃ t, step s = .next t ∧ ∃ es, t.trace = es ++ s.trace :=
  ⟨rfl, _, rfl, [_, _, _, _], rfl⟩

/-- For TransportFailureEndsCommand, its first two clauses. -/
theorem witness_transport :
    (failing.running = some (.stb 0) ∧ failing.cfg.spiCanFail = true ∧
      transacts failing = true ∧ failing.input.spi = .fail ∧ loopOf failing.seq = none) ∧
    (failingSample.running = some (.rxpkt 2) ∧ failingSample.cfg.spiCanFail = true ∧
      loopOf failingSample.seq = some .edgeRise ∧ polls .edgeRise failingSample = true ∧
      failingSample.seq = .rxWaitRise ∧ failingSample.input.gdo = .fail) := by decide

/-- For InitTransactions; the state of each clause is a busy state of that name. -/
theorem witness_init :
    (let s := busy .initStbSres opInit [0, 0]
     s.csn = true ∧ s.freqw = 0 ∧ s.sync16 = 0 ∧ s.spiAnswer 2 = some [0, 0] ∧
       s.seq = .initStbSres) ∧
    (busy .initWrFreq2 opInit [0, 0]).seq = .initWrFreq2 ∧
    (busy .initWrFreq1 opInit [0, 0]).seq = .initWrFreq1 ∧
    (busy .initWrFreq0 opInit [0, 0]).seq = .initWrFreq0 ∧
    (busy .initWrSync1 opInit [0, 0]).seq = .initWrSync1 ∧
    (busy .initWrSync0 opInit [0, 0]).seq = .initWrSync0 ∧
    (busy .initStbSftx opInit [0, 0]).seq = .initStbSftx ∧
    (busy .initStbSfrx opInit [0, 0]).seq = .initStbSfrx ∧
    (busy .initWrbPatable opInit [0, 0, 0, 0, 0, 0, 0, 0, 0]).spiAnswer 9 =
      some [0, 0, 0, 0, 0, 0, 0, 0, 0] ∧
    (busy .initWrbPatable opInit [0, 0, 0, 0, 0, 0, 0, 0, 0]).seq = .initWrbPatable := by decide

/-- For ProfileApplication: the last pair, and past it; CFGRX and CFGTX. -/
theorem witness_profile :
    let s := { busy .cfgWrite opCfgrx [0, 0] with cfgIdx := 1 }
    let u := { busy .cfgWrite opCfgtx [0, 0] with cfgSel := .tx, cfgIdx := 1 }
    (s.seq = .cfgWrite ∧ s.csn = true ∧ s.cfgSel = .rx ∧
      s.cfg.profileRx[s.cfgIdx.toNat]? = some (0x08, 0x05) ∧ s.spiAnswer 2 = some [0, 0]) ∧
    (u.seq = .cfgWrite ∧ u.csn = true ∧ u.cfgSel = .tx ∧
      u.cfgIdx.toNat = u.cfg.profileTx.length) := by decide

/-- For ReceiveConfigures, ReceiveEdgeWaits, ReceiveReadsFifo and ReceiveCleansUp: in each state the
hypotheses that are about the state. -/
theorem witness_receive :
    (let s := { busy .rxWrPktlen opRxpkt [0, 0] with len := 2 }
     s.csn = true ∧ s.len = 2 ∧ s.spiAnswer 2 = some [0, 0] ∧ s.seq = .rxWrPktlen) ∧
    (busy .rxStbSrx opRxpkt [0, 0]).seq = .rxStbSrx ∧
    (let s := { busy .rxWaitRise opRxpkt [] with len := 2, pollCnt := 2 }
     s.len = 2 ∧ s.gdoAnswer = some false ∧ s.seq = .rxWaitRise ∧ polls .edgeRise s = true) ∧
    (let s := { busy .rxWaitFall opRxpkt [] with len := 2, pollCnt := 2 }
     s.len = 2 ∧ s.gdoAnswer = some false ∧ s.seq = .rxWaitFall ∧ polls .edgeFall s = true) ∧
    (let s := { busy .rxRdbFifo opRxpkt [0x42, 0x5A, 0xF0] with len := 2 }
     s.seq = .rxRdbFifo ∧ s.csn = true ∧ s.len = 2 ∧
       ¬ (s.cfg.rdbOverflow = .refuse ∧ 0xFF < s.cfg.map.rxfifo.toNat + 8 * s.len.toNat) ∧
       s.spiAnswer (s.len.toNat + 1) = some [0x42, 0x5A, 0xF0]) ∧
    (busy .rxStbSidle opRxpkt [0, 0]).seq = .rxStbSidle ∧
    (let s := { busy .rxWaitIdle opRxpkt [0, 1] with len := 2, pollCnt := 1 }
     s.spiAnswer 2 = some [0, 1] ∧ s.seq = .rxWaitIdle ∧ polls .marc s = true) ∧
    (busy .rxStbSfrx opRxpkt [0, 0]).seq = .rxStbSfrx := by decide

/-- For UnpackIsMostSignificantFirst: the last bit of the last byte. -/
theorem witness_unpack : 1 < ([0x5A, 0xF0] : List Byte).length ∧ 7 < 8 := by decide

/-- For TransmitFrames, TransmitFlushes, TransmitLoadsAndStarts, TransmitDrains and TransmitChecks,
with the empty payload. -/
theorem witness_transmit :
    (let s := busy .txFrame opTxpkt []
     s.sync16 = 0 ∧ s.plen = 0 ∧ s.pbits.toList.take s.plen.toNat = [] ∧ s.txPayload = [] ∧
       s.seq = .txFrame ∧ s.plen.toNat ≤ 496 ∧ s.plen.toNat % 8 = 0) ∧
    (let s := { busy .txWrPktlen opTxpkt [0, 0] with frameLen := 64 }
     s.csn = true ∧ s.spiAnswer 2 = some [0, 0] ∧ s.seq = .txWrPktlen) ∧
    (busy .txStbSidle opTxpkt [0, 0]).seq = .txStbSidle ∧
    (let s := { busy .txWaitIdle opTxpkt [0, 1] with pollCnt := 1 }
     s.spiAnswer 2 = some [0, 1] ∧ s.seq = .txWaitIdle ∧ polls .marc s = true) ∧
    (busy .txStbSftx opTxpkt [0, 0]).seq = .txStbSftx ∧
    (busy .txSettle1 opTxpkt []).seq = .txSettle1 ∧
    (let s := { busy .txWrbFifo opTxpkt (List.replicate 65 0) with frameLen := 64 }
     s.frameLen.toNat ≤ 64 ∧ s.seq = .txWrbFifo ∧
       s.spiAnswer (s.frameLen.toNat + 1) = some (List.replicate 65 0)) ∧
    (busy .txStbStx opTxpkt [0, 0]).seq = .txStbStx ∧
    (let s := { busy .txPollDrain opTxpkt [0, 0x80] with pollCnt := 1 }
     s.spiAnswer 2 = some [0, 0x80] ∧ s.seq = .txPollDrain ∧ polls .drain s = true) ∧
    (busy .txBackoff opTxpkt []).seq = .txBackoff ∧
    (busy .txStbSftx2 opTxpkt [0, 0]).seq = .txStbSftx2 ∧
    (busy .txStbSfrx opTxpkt [0, 0]).seq = .txStbSfrx ∧
    (busy .txSettle2 opTxpkt []).seq = .txSettle2 ∧
    (busy .txCheck opTxpkt [0, 0x80]).spiAnswer 2 = some [0, 0x80] ∧
    (0x80 : Byte) &&& 0x7F = 0 ∧ (0x81 : Byte) &&& 0x7F ≠ 0 := by decide

/-- For FrameLayout: the longest payload. -/
theorem witness_frame :
    (List.replicate 496 true).length ≤ 496 ∧ (List.replicate 496 true).length % 8 = 0 := by
  rw [List.length_replicate]
  decide

/-- For WaitsCancelAndTimeOut: an abort at the limit, and the limit with no abort. -/
theorem witness_wait :
    let s := { busy .rxWaitRise opRxpkt [] with len := 2, pollCnt := 3, env := [abortInput] }
    let u := { busy .rxWaitRise opRxpkt [] with len := 2, pollCnt := 3 }
    (s.running = some (.rxpkt 2) ∧ loopOf s.seq = some .edgeRise ∧ s.seq ≠ .txBackoff ∧
      s.cfg.hasAbort = true ∧ s.input.abortReq = true) ∧
    (u.running = some (.rxpkt 2) ∧ loopOf u.seq = some .edgeRise ∧ u.seq ≠ .txBackoff ∧
      ¬ (u.cfg.hasAbort = true ∧ u.input.abortReq = true) ∧
      PollKind.edgeRise.limit u.cfg = .polls 3 ∧ 3 ≤ u.pollCnt) := by decide

/-- For TransmitDrains: an abort at the limit, and the limit with no abort. -/
theorem witness_drain :
    let s := { busy .txPollDrain opTxpkt [] with pollCnt := 2, env := [abortInput] }
    let u := { busy .txPollDrain opTxpkt [] with pollCnt := 2 }
    (s.csn = true ∧ s.txPayload = [] ∧ s.seq = .txPollDrain ∧ s.cfg.hasAbort = true ∧
      s.input.abortReq = true) ∧
    (u.csn = true ∧ u.txPayload = [] ∧ u.seq = .txPollDrain ∧
      ¬ (u.cfg.hasAbort = true ∧ u.input.abortReq = true) ∧
      u.cfg.pollLimitDrain = .polls 2 ∧ 2 ≤ u.pollCnt) := by decide

/-- For PackAndUnpackAreInverse. -/
theorem witness_pack : (unpack [0x5A]).length % 8 = 0 := by decide

/-- For FrequencyWordWithinOneUnit, V-FW-11: the greatest frequency whose rounded word is in range,
and the next hertz beyond it. -/
theorem witness_frequency :
    0 < cfg.xtalHz ∧ 0 < 1 ∧ 2 * (6655999801 * 65536) < (2 * 0xFFFFFF + 1) * (1 * cfg.xtalHz) ∧
    ¬ 2 * (6655999802 * 65536) < (2 * 0xFFFFFF + 1) * (1 * cfg.xtalHz) := by decide

/-- For FrequencyWordRange: in range at both ends, and out of range beyond each. -/
theorem witness_range :
    ((0 : Int) ≤ 0 ∧ (0 : Int) ≤ 0xFFFFFF) ∧ ((0 : Int) ≤ 0xFFFFFF) ∧ ((-1 : Int) < 0) ∧
    ((0xFFFFFF : Int) < 0x1000000) := by decide

/-- For SyncWordParse, its clauses. -/
theorem witness_sync :
    ['1', '2', '3'].length ≠ 4 ∧ ('G' ∈ ['1', '2', 'G', '4'] ∧ hexDigit 'G' = none) ∧
    hexDigit '0' = some 0 ∧ hexDigit '9' = some 9 ∧ hexDigit 'f' = some 15 ∧
    hexDigit 'A' = some 10 := by decide

/-- For InvariantKeptByEveryStep and StepAlwaysAnswers: the safe state takes a step. -/
theorem witness_safe_step : SafeState failing ∧ ∃ t, step failing = .next t :=
  ⟨witness_safe_state, _, rfl⟩

/-- For TransactionsStayBracketed, CommandsNeverOverlap, AtMostOneActionPerStep,
ResultsWrittenOnlyWhereSaid and LatchesHeldWhileRunning: a read in PRIM that changes RDATA. -/
theorem witness_whole_machine :
    let s := { busy .prim opRd1 [0x0F, 0x40] with trace := [.accept (.rd1 0)] }
    wellBracketed s.trace = true ∧ s.input.rst = false ∧ commandsAlternate s.trace = true ∧
    commandOpen s.trace = s.busy ∧ s.seq ≠ .idle ∧
    after (fun t => decide (t.rdata ≠ s.rdata)) (step s) = some true := by decide

/-- For CommandsEndWhenLimitsAreFinite. -/
theorem witness_finite :
    SafeState failing ∧ limitsFinite failing.cfg ∧ noReset failing := by
  refine ⟨witness_safe_state, ⟨by decide, by decide, by decide⟩, ?_⟩
  intro i hi
  have h : i = failInput := by simpa [failing, busy, idle] using hi
  rw [h]
  rfl

/-- A script of answers to a command presented to the idle block. -/
def scripted (i : Instr) (env : List StepInput) : State :=
  { idle [] with host := [some (encode i)], env := env }

theorem witness_init_run :
    let s := scripted (.init 0x10B071 0x1234) (List.replicate 10 (reply [] false))
    s.seq = .idle ∧ s.csn = true ∧ s.host = some (encode (.init 0x10B071 0x1234)) :: [] ∧
    decode (encode (.init 0x10B071 0x1234)) = .ok (.init 0x10B071 0x1234) ∧ goodInputs 10 s := by
  refine ⟨rfl, rfl, rfl, rfl, by decide, ?_⟩
  simp [scripted, idle, reply]

theorem witness_profile_run :
    let s := scripted .cfgrx (List.replicate 4 (reply [] false))
    s.seq = .idle ∧ s.csn = true ∧ s.host = some (encode .cfgrx) :: [] ∧
    decode (encode .cfgrx) = .ok .cfgrx ∧ cfg.profileRx = s.cfg.profileRx ∧
    cfg.profileRx.length ≤ 255 ∧ goodInputs (cfg.profileRx.length + 2) s := by
  refine ⟨rfl, rfl, rfl, rfl, rfl, by decide, by decide, ?_⟩
  simp [scripted, idle, reply, cfg]

theorem witness_profile_run_tx :
    let s := scripted .cfgtx (List.replicate 3 (reply [] false))
    s.seq = .idle ∧ s.csn = true ∧ s.host = some (encode .cfgtx) :: [] ∧
    decode (encode .cfgtx) = .ok .cfgtx ∧ cfg.profileTx = s.cfg.profileTx ∧
    cfg.profileTx.length ≤ 255 ∧ goodInputs (cfg.profileTx.length + 2) s := by
  refine ⟨rfl, rfl, rfl, rfl, rfl, by decide, by decide, ?_⟩
  simp [scripted, idle, reply, cfg]

/-- The quiet input of a step whose answer does not matter. -/
def quiet : StepInput := reply [] false

theorem witness_receive_run :
    let s := scripted (.rxpkt 2)
      [quiet, quiet, quiet, reply [] true, quiet, reply [0x42, 0x5A, 0xF0] false, quiet,
       reply [0x0F, 0x01] false, quiet]
    s.seq = .idle ∧ s.csn = true ∧ s.host = some (encode (.rxpkt 2)) :: [] ∧
    decode (encode (.rxpkt 2)) = .ok (.rxpkt 2) ∧ s.cfg.wf = true ∧
    ¬ (s.cfg.rdbOverflow = .refuse ∧ 0xFF < s.cfg.map.rxfifo.toNat + 8 * (2 : Byte).toNat) ∧
    (∀ i ∈ s.env, calmInput s.cfg i) ∧ ([0x42, 0x5A, 0xF0] : List Byte).length = 2 + 1 ∧
    (0x01 : Byte) &&& 0x1F = 0x01 := by
  refine ⟨rfl, rfl, rfl, rfl, by decide, by decide, ?_, rfl, by decide⟩
  simp [scripted, idle, quiet, reply, calmInput]

theorem witness_transmit_run :
    let s := scripted (.txpkt 0x1234 8 [true, true, false, false, true, true, false, false])
      [quiet, quiet, quiet, quiet, reply [0x0F, 0x01] false, quiet, quiet, quiet, quiet,
       reply [0x0F, 0x80] false, quiet, quiet, quiet, reply [0x0F, 0x00] false]
    s.seq = .idle ∧ s.csn = true ∧
    s.host =
      some (encode (.txpkt 0x1234 8 [true, true, false, false, true, true, false, false])) :: [] ∧
    decode (encode (.txpkt 0x1234 8 [true, true, false, false, true, true, false, false])) =
      .ok (.txpkt 0x1234 8 [true, true, false, false, true, true, false, false]) ∧
    s.cfg.wf = true ∧ (8 : BitVec 16).toNat ≤ 496 ∧ (8 : BitVec 16).toNat % 8 = 0 ∧
    (∀ i ∈ s.env, calmInput s.cfg i) ∧
    (0x01 : Byte) &&& 0x1F = 0x01 ∧ (0x80 : Byte) &&& 0x7F = 0 := by
  refine ⟨rfl, rfl, rfl, rfl, by decide, by decide, by decide, ?_, by decide, by decide⟩
  simp [scripted, idle, quiet, reply, calmInput]

end Sys2Proof.Tests
end

section
/-! SUPPORT and proofs for 00_scope.md: Unpack and Pack bit by bit and as inverses (R10), and what
one step may write into the trace (R13, R125). -/

namespace Sys2Proof.Scope

open Sys2Proof.Machine Sys2Proof.Laws Sys2Proof.Safety

/-! ### One byte of Unpack and Pack -/

theorem getElem?_unpackByte (b : Byte) {j : Nat} (hj : j < 8) :
    (unpackByte b)[j]? = some (b.getLsbD (7 - j)) := by
  interval_cases j <;> rfl

theorem unpackByte_injective : Function.Injective unpackByte := by
  intro b c h
  apply BitVec.eq_of_getLsbD_eq
  intro i hi
  have hbit : (unpackByte b)[7 - i]? = (unpackByte c)[7 - i]? := by rw [h]
  rw [getElem?_unpackByte b (by omega), getElem?_unpackByte c (by omega)] at hbit
  simpa [show 7 - (7 - i) = i by omega] using hbit

/-- R10, for one byte: the eight weights of `Pack` put every bit where `Unpack` finds it. -/
theorem unpackByte_packByte : ∀ b0 b1 b2 b3 b4 b5 b6 b7 : Bool,
    unpackByte (packByte b0 b1 b2 b3 b4 b5 b6 b7) = [b0, b1, b2, b3, b4, b5, b6, b7] := by
  decide

theorem packByte_unpackByte (b : Byte) :
    packByte (b.getLsbD 7) (b.getLsbD 6) (b.getLsbD 5) (b.getLsbD 4)
      (b.getLsbD 3) (b.getLsbD 2) (b.getLsbD 1) (b.getLsbD 0) = b :=
  unpackByte_injective (unpackByte_packByte ..)

theorem pack_unpackByte_append (b : Byte) (rest : BitString) :
    pack (unpackByte b ++ rest) = b :: pack rest :=
  congrArg (· :: pack rest) (packByte_unpackByte b)

/-! ### Byte strings -/

theorem getElem?_unpack (l : List Byte) {k j : Nat} (hk : k < l.length) (hj : j < 8) :
    (unpack l)[8 * k + j]? = some (l[k].getLsbD (7 - j)) := by
  induction l generalizing k with
  | nil => simp at hk
  | cons b bs ih =>
    rw [unpack_cons]
    cases k with
    | zero =>
      rw [Nat.mul_zero, Nat.zero_add, List.getElem?_append_left (by simpa using hj)]
      exact getElem?_unpackByte b hj
    | succ k =>
      have hpast : 8 * (k + 1) + j - (unpackByte b).length = 8 * k + j := by
        rw [length_unpackByte]; omega
      rw [List.getElem?_append_right (by rw [length_unpackByte]; omega), hpast]
      exact ih (by simpa using hk)

theorem pack_unpack (l : List Byte) : pack (unpack l) = l := by
  induction l with
  | nil => rfl
  | cons b bs ih => rw [unpack_cons, pack_unpackByte_append, ih]

/-- A bit string of `n` whole bytes survives packing: `pack` takes eight bits at a time. -/
theorem unpack_pack (n : Nat) (b : BitString) (h : b.length = 8 * n) : unpack (pack b) = b := by
  induction n generalizing b with
  | zero =>
    obtain rfl : b = [] := List.length_eq_zero_iff.mp h
    rfl
  | succ n ih =>
    match b, h with
    | b0 :: b1 :: b2 :: b3 :: b4 :: b5 :: b6 :: b7 :: rest, h =>
      have hrest : rest.length = 8 * n := by simp only [List.length_cons] at h; omega
      rw [pack, unpack_cons, unpackByte_packByte, ih rest hrest]
      rfl

/-- Settles O34: byte by byte, each byte standing before the eight-bit blocks of the later ones. -/
theorem unpackIsMostSignificantFirst : Obligations.UnpackIsMostSignificantFirst := by
  intro l k j hk hj
  exact getElem?_unpack l hk hj

/-- Settles O43: `pack` undoes `unpack` by induction on the bytes, `unpack` undoes `pack` by
induction on the number of whole bytes. -/
theorem packAndUnpackAreInverse : Obligations.PackAndUnpackAreInverse :=
  ⟨pack_unpack, fun b hb => unpack_pack (b.length / 8) b (by omega)⟩

/-! ### What one step writes into the trace -/

/-- R13, R125: the events of a step's one external action, newest first: none at all, an acceptance,
a bracketed exchange (R126), a sample or a delay. -/
inductive ActionEvents : List Event → Prop where
  | nothing : ActionEvents []
  | accept (i : Instr) : ActionEvents [.accept i]
  | acceptReserved (op : Byte) : ActionEvents [.acceptReserved op]
  | xfer {mosi miso : List Byte} : mosi ≠ [] → miso.length = mosi.length →
      ActionEvents [.csHigh, .xfer mosi miso, .csLow]
  | xferFail {mosi : List Byte} : mosi ≠ [] → ActionEvents [.csHigh, .xferFail mosi, .csLow]
  | gdo (level : Bool) : ActionEvents [.gdo level]
  | gdoFail : ActionEvents [.gdoFail]
  | delay (ms : Nat) : ActionEvents [.delay ms]

/-- R124: after its action a step writes nothing more, or the completion of the command. -/
def Closes (tr : List Event) (t : State) : Prop :=
  t.trace = tr ∨ ∃ e info, t.trace = .done e info :: tr

/-- What a step from a state with the trace `tr` leaves in the trace: one action, then `Closes`. -/
def Records (tr : List Event) (t : State) : Prop := ∃ es, ActionEvents es ∧ Closes (es ++ tr) t

theorem Closes.of_trace {tr : List Event} {t : State} (h : t.trace = tr) : Closes tr t := .inl h

theorem Closes.complete (e : ErrCode) (info : Byte) (s : State) :
    Closes s.trace (complete e info s) := .inr ⟨_, _, rfl⟩

theorem Closes.ended (s : State) : Closes s.trace (ended s) := .inr ⟨_, _, rfl⟩

theorem Closes.endedWith (e : ErrCode) (info : Byte) (code : BitVec 6) (s : State) :
    Closes s.trace (endedWith e info code s) := .inr ⟨_, _, rfl⟩

/-- A step with no external action. -/
theorem Closes.records {tr : List Event} {t : State} (h : Closes tr t) : Records tr t :=
  ⟨[], .nothing, h⟩

/-- R13: at most one of the events an action writes is an external action. -/
theorem ActionEvents.length_filter_isAction {es : List Event} (h : ActionEvents es) :
    (es.filter Event.isAction).length ≤ 1 := by
  cases h with
  | nothing => exact Nat.zero_le 1
  | _ => exact Nat.le_refl 1

theorem Records.adds_at_most_one_action {tr : List Event} {t : State} (h : Records tr t) :
    ∃ es, t.trace = es ++ tr ∧ (es.filter Event.isAction).length ≤ 1 := by
  obtain ⟨es, hes, htr | ⟨e, info, htr⟩⟩ := h
  · exact ⟨es, htr, hes.length_filter_isAction⟩
  · exact ⟨.done e info :: es, htr, by simpa [Event.isAction] using hes.length_filter_isAction⟩

/-! ### The shared operations -/

theorem finishCommand_closes (s : State) : Post (Closes s.trace) (finishCommand s) := by
  rw [finishCommand_eq]; exact Closes.ended s

theorem goto_closes (q : FineState) (s : State) : Post (Closes s.trace) (goto q s) := by
  rw [goto_eq]; exact .of_trace rfl

theorem heldOff_records (s : State) : Post (Records s.trace) (heldOff s) :=
  (Closes.of_trace rfl).records

theorem admitCommand_closes (v : Option (ErrCode × Byte)) (q : FineState) (s : State) :
    Post (Closes s.trace) (admitCommand v q s) := by
  cases v with
  | none => exact goto_closes q s
  | some v => exact Closes.complete v.1 v.2 s

/-- R122: acceptance, whatever else the accepted state latches. -/
theorem admitCommand_records {tr : List Event} {i : Instr} (v : Option (ErrCode × Byte))
    (q : FineState) {s : State} (h : s.trace = .accept i :: tr) :
    Post (Records tr) (admitCommand v q s) :=
  (admitCommand_closes v q s).mono fun _ ht => ⟨_, .accept i, by rwa [h] at ht⟩

theorem txn_records {mosi : List Byte} {k : List Byte → State → Out} (s : State) (hm : mosi ≠ [])
    (hk : ∀ m u, Post (Closes u.trace) (k m u)) : Post (Records s.trace) (txn mosi k s) := by
  apply txn_post
  · intro m hlen
    exact (hk m _).mono fun _ ht => ⟨_, .xfer hm hlen, ht⟩
  · exact ⟨_, .xferFail hm, Closes.endedWith ..⟩

theorem gdoSample_records {k : Bool → State → Out} (s : State)
    (hk : ∀ g u, Post (Closes u.trace) (k g u)) : Post (Records s.trace) (gdoSample k s) := by
  apply gdoSample_post
  · intro g
    exact (hk g _).mono fun _ ht => ⟨_, .gdo g, ht⟩
  · exact ⟨_, .gdoFail, Closes.endedWith ..⟩

theorem wr1_records (addr value : Byte) {k : State → Out} (s : State)
    (hk : ∀ u, Post (Closes u.trace) (k u)) : Post (Records s.trace) (wr1 addr value k s) :=
  txn_records s (by simp [wr1Mosi]) fun _ u => hk u

theorem rd1_records (addr : Byte) {k : Byte → State → Out} (s : State)
    (hk : ∀ v u, Post (Closes u.trace) (k v u)) : Post (Records s.trace) (rd1 addr k s) :=
  txn_records s (by simp [rd1Mosi]) fun _ u => hk _ u

theorem wrb_records (addr : Byte) (bytes : List Byte) {k : State → Out} (s : State)
    (hk : ∀ u, Post (Closes u.trace) (k u)) : Post (Records s.trace) (wrb addr bytes k s) :=
  txn_records s (by simp [wrbMosi]) fun _ u => hk u

theorem stb_records (addr : Byte) {k : Byte → Byte → State → Out} (s : State)
    (hk : ∀ b c u, Post (Closes u.trace) (k b c u)) : Post (Records s.trace) (stb addr k s) :=
  txn_records s (by simp [stbMosi]) fun _ u => hk _ _ u

theorem rdb_records (addr len : Byte) {k : List Byte → State → Out} (s : State)
    (hk : ∀ m u, Post (Closes u.trace) (k m u)) : Post (Records s.trace) (rdb addr len k s) := by
  unfold rdb
  split
  · trivial
  · exact txn_records s (by simp [rdbMosi]) fun m u => hk m { u with rbuf := _, rlen := _ }

theorem wr1Then_records (addr value : Byte) (q : FineState) (s : State) :
    Post (Records s.trace) (wr1Then addr value q s) := wr1_records addr value s (goto_closes q)

theorem wrbThen_records (addr : Byte) (bytes : List Byte) (q : FineState) (s : State) :
    Post (Records s.trace) (wrbThen addr bytes q s) := wrb_records addr bytes s (goto_closes q)

theorem stbThen_records (addr : Byte) (q : FineState) (s : State) :
    Post (Records s.trace) (stbThen addr q s) := stb_records addr s fun _ _ => goto_closes q

theorem stbThenWait_records (addr : Byte) (q : FineState) (s : State) :
    Post (Records s.trace) (stbThenWait addr q s) :=
  stb_records addr s fun _ _ u => goto_closes q { u with pollCnt := 0 }

theorem stbFinish_records (addr : Byte) (s : State) :
    Post (Records s.trace) (stb addr (fun _ _ t => finishCommand t) s) :=
  stb_records addr s fun _ _ => finishCommand_closes

theorem delayThen_records (ms : Nat) (q : FineState) (s : State) :
    Post (Records s.trace) (delayThen ms q s) := by
  rw [delayThen_eq]; exact ⟨_, .delay ms, .of_trace rfl⟩

/-- R129: a poll step ends the command, or makes its poll and only counts afterwards. -/
theorem pollStep_records {α : Type} (k : PollKind) {poll : (α → State → Out) → State → Out}
    (sat : α → Bool) (next stay : FineState) (s : State)
    (hpoll : ∀ f : α → State → Out, (∀ v u, Post (Closes u.trace) (f v u)) →
      Post (Records s.trace) (poll f s)) :
    Post (Records s.trace) (pollStep k poll sat next stay s) := by
  refine pollStep_split (Post (Records s.trace)) ?_ ?_ fun _ => hpoll _ fun v u => ?_
  · exact (Closes.endedWith ..).records
  · exact (Closes.endedWith ..).records
  · split
    · exact .of_trace rfl
    · exact .of_trace rfl

theorem pollGdo_records (k : PollKind) (sat : Bool → Bool) (next stay : FineState) (s : State) :
    Post (Records s.trace) (pollStep k gdoSample sat next stay s) :=
  pollStep_records k sat next stay s fun _ => gdoSample_records s

theorem pollRd1_records (k : PollKind) (addr : Byte) (sat : Byte → Bool) (next stay : FineState)
    (s : State) : Post (Records s.trace) (pollStep k (rd1 addr) sat next stay s) :=
  pollStep_records k sat next stay s fun _ => rd1_records addr s

/-! ### The commands -/

/-- The shape of a primitive in PRIM: it acts when OP names it (R160) and is held off otherwise. -/
theorem ite_heldOff_records {c : Prop} [Decidable c] {o : Out} {s : State}
    (h : Post (Records s.trace) o) : Post (Records s.trace) (if c then o else heldOff s) := by
  split
  · exact h
  · exact heldOff_records s

theorem execWr1_records (addr val : Byte) (s : State) :
    Post (Records s.trace) (execWr1 addr val s) := by
  unfold execWr1
  split
  · exact admitCommand_records _ _ rfl
  · exact ite_heldOff_records (wr1_records _ _ s finishCommand_closes)
  · exact heldOff_records s

theorem execRd1_records (addr : Byte) (s : State) :
    Post (Records s.trace) (execRd1 addr s) := by
  unfold execRd1
  split
  · exact admitCommand_records _ _ rfl
  · exact ite_heldOff_records
      (rd1_records _ s fun v u => finishCommand_closes { u with rdata := v })
  · exact heldOff_records s

theorem execWrb_records (addr wlen : Byte) (wbuf : List Byte) (s : State) :
    Post (Records s.trace) (execWrb addr wlen wbuf s) := by
  unfold execWrb
  split
  · exact admitCommand_records _ _ rfl
  · apply ite_heldOff_records
    split
    · exact wrb_records _ _ s finishCommand_closes
    · trivial
  · exact heldOff_records s

theorem execRdb_records (addr len : Byte) (s : State) :
    Post (Records s.trace) (execRdb addr len s) := by
  unfold execRdb
  split
  · exact admitCommand_records _ _ rfl
  · exact ite_heldOff_records (rdb_records _ _ s fun _ => finishCommand_closes)
  · exact heldOff_records s

theorem execStb_records (addr : Byte) (s : State) :
    Post (Records s.trace) (execStb addr s) := by
  unfold execStb
  split
  · exact admitCommand_records _ _ rfl
  · exact ite_heldOff_records
      (stb_records _ s fun b c u => finishCommand_closes { u with stat0 := b, stat1 := c })
  · exact heldOff_records s

theorem execInit_records (freqw : BitVec 24) (sync16 : BitVec 16) (s : State) :
    Post (Records s.trace) (execInit freqw sync16 s) := by
  unfold execInit
  split
  · exact admitCommand_records _ _ rfl
  · exact stbThen_records ..
  · exact wr1Then_records ..
  · exact wr1Then_records ..
  · exact wr1Then_records ..
  · exact wr1Then_records ..
  · exact wr1Then_records ..
  · exact wrbThen_records ..
  · exact stbThen_records ..
  · exact stbFinish_records ..
  · exact heldOff_records s

/-- R189: one pair written, or the end with no external action. -/
theorem cfgWriteStep_records (s : State) : Post (Records s.trace) (cfgWriteStep s) := by
  unfold cfgWriteStep
  split
  · exact wr1_records _ _ s fun u => .of_trace rfl
  · split
    · exact (finishCommand_closes s).mono fun _ => Closes.records
    · trivial

theorem execCfgrx_records (s : State) : Post (Records s.trace) (execCfgrx s) := by
  unfold execCfgrx
  split
  · exact admitCommand_records _ _ rfl
  · exact ite_heldOff_records (cfgWriteStep_records s)
  · exact heldOff_records s

theorem execCfgtx_records (s : State) : Post (Records s.trace) (execCfgtx s) := by
  unfold execCfgtx
  split
  · exact admitCommand_records _ _ rfl
  · exact ite_heldOff_records (cfgWriteStep_records s)
  · exact heldOff_records s

theorem execRxpkt_records (len : Byte) (s : State) :
    Post (Records s.trace) (execRxpkt len s) := by
  unfold execRxpkt
  split
  · exact admitCommand_records _ _ rfl
  · exact wr1Then_records ..
  · exact stbThenWait_records ..
  · exact pollGdo_records ..
  · exact pollGdo_records ..
  · exact rdb_records _ _ s fun m u => goto_closes _ { u with rxBits := _, rxNbits := _ }
  · exact stbThenWait_records ..
  · exact pollRd1_records ..
  · exact stbFinish_records ..
  · exact heldOff_records s

/-- R245: the frame is built with no external action. -/
theorem txBuildFrame_records (s : State) : Post (Records s.trace) (txBuildFrame s) := by
  unfold txBuildFrame
  split
  · exact (Closes.of_trace rfl).records
  · trivial

theorem txLoadFifo_records (s : State) : Post (Records s.trace) (txLoadFifo s) := by
  unfold txLoadFifo
  split
  · exact wrbThen_records ..
  · trivial

theorem txVerdict_closes (v : Byte) (u : State) : Post (Closes u.trace) (txVerdict v u) := by
  simp only [txVerdict]
  split
  · exact finishCommand_closes { u with residual := _, txOk := _ }
  · exact Closes.complete _ _ { u with residual := _, txOk := _ }

theorem execTxpkt_records (sync16 plen : BitVec 16) (pbits : BitString) (s : State) :
    Post (Records s.trace) (execTxpkt sync16 plen pbits s) := by
  unfold execTxpkt
  split
  · exact admitCommand_records _ _ rfl
  · exact txBuildFrame_records s
  · exact wr1Then_records ..
  · exact stbThenWait_records ..
  · exact pollRd1_records ..
  · exact stbThen_records ..
  · exact delayThen_records ..
  · exact txLoadFifo_records s
  · exact stbThenWait_records ..
  · exact pollRd1_records ..
  · exact delayThen_records ..
  · exact stbThen_records ..
  · exact stbThen_records ..
  · exact delayThen_records ..
  · exact rd1_records _ s txVerdict_closes
  · exact heldOff_records s

/-- R13: the part of a step that belongs to command `i` takes at most one external action. -/
theorem exec_records (i : Instr) (s : State) : Post (Records s.trace) (exec i s) := by
  cases i with
  | wr1 addr val => exact execWr1_records addr val s
  | rd1 addr => exact execRd1_records addr s
  | wrb addr wlen wbuf => exact execWrb_records addr wlen wbuf s
  | rdb addr len => exact execRdb_records addr len s
  | stb addr => exact execStb_records addr s
  | init freqw sync16 => exact execInit_records freqw sync16 s
  | cfgrx => exact execCfgrx_records s
  | cfgtx => exact execCfgtx_records s
  | rxpkt len => exact execRxpkt_records len s
  | txpkt sync16 plen pbits => exact execTxpkt_records sync16 plen pbits s

/-! ### The step -/

/-- R98, R282: a reserved opcode is accepted and completed in one step. -/
theorem acceptReserved_records (op : Byte) (s : State) :
    Records s.trace (acceptReserved op s) :=
  ⟨_, .acceptReserved op, Closes.complete ..⟩

theorem idleStep_records (s : State) : Post (Records s.trace) (idleStep s) := by
  unfold idleStep
  split
  · exact (Closes.of_trace rfl).records
  · exact (Closes.of_trace rfl).records
  · split
    · exact exec_records _ { s with host := _ }
    · exact acceptReserved_records _ { s with host := _ }

theorem busyStep_records (s : State) : Post (Records s.trace) (busyStep s) := by
  unfold busyStep
  split
  · exact exec_records _ s
  · trivial

/-- R13: what a step leaves in the trace; a reset leaves it as it is (R323). -/
theorem step_records (s : State) : Post (Records s.trace) (step s) := by
  cases hrst : s.input.rst with
  | true =>
    rw [step_of_rst hrst]
    exact (Closes.of_trace rfl).records
  | false =>
    exact step_post hrst (fun _ => idleStep_records s) (fun _ => busyStep_records s) fun _ => id

/-- Settles O52: every step records one action and perhaps a completion, which is no action. -/
theorem atMostOneActionPerStep : Obligations.AtMostOneActionPerStep := by
  intro s t hstep
  exact ((step_records s).of_next hstep).adds_at_most_one_action

end Sys2Proof.Scope
end

section
/-! SUPPORT and proofs for 10_state.md. `busyStep_does` and `idleStep_does` say once what a step may
write, in a running command and in IDLE; the invariant `SafeState` (R21 to R29) and the claims about
which step may change which register (R23, R25 to R28, R30) are read off their cases. -/

namespace Sys2Proof.Registers

open Sys2Proof.Machine Sys2Proof.Laws Sys2Proof.Safety

/-! ### What a step of a running command may write -/

/-- The state once the step's external action is made: only CSN and the trace may have moved, and a
released CSN stays released (R126). -/
inductive Quiet (s : State) : State → Prop where
  | mk (csn : Bool) (tr : List Event) (hc : s.csn = true → csn = true) :
      Quiet s { s with csn := csn, trace := tr }

/-- `q` continues the command of `p`: of the same opcodes, with the frame not newly built, and not
one of the states that only acceptance and `cfgWriteStep` lead to. -/
structure Follows (p q : FineState) : Prop where
  fits : seqFits q = seqFits p
  built : frameBuilt q = true → frameBuilt p = true
  entered : q ≠ .idle ∧ q ≠ .prim ∧ q ≠ .cfgWrite

/-- R24, R129: the values POLLCNT may take on the way to `q`. -/
inductive Counts (u : State) (q : FineState) : Nat → Prop where
  | cleared : Counts u q 0
  | kept (hl : loopOf q = loopOf u.seq) : Counts u q u.pollCnt
  | counted {k : PollKind} (hl : loopOf q = some k)
      (hlim : limitReached (k.limit u.cfg) u.pollCnt = false) : Counts u q (u.pollCnt + 1)

/-- Everything a step of a running command may write after its external action. -/
inductive Effect (u : State) : State → Prop where
  | failed {e : ErrCode} (info : Byte) (he : e ≠ .none) (hs : e ≠ .syncFmt) :
      Effect u (endedWith e info u.seq.code u)
  | moved {q : FineState} {n : Nat} (hf : Follows u.seq q) (hn : Counts u q n) :
      Effect u { u with seq := q, pollCnt := n }
  | finished : Effect u (ended u)
  | readSingle (v : Byte) (hq : u.seq = .prim) (hop : u.op = opRd1) :
      Effect u (ended { u with rdata := v })
  | strobed (b c : Byte) (hq : u.seq = .prim) (hop : u.op = opStb) :
      Effect u (ended { u with stat0 := b, stat1 := c })
  | readBurst (m : List Byte) (hq : u.seq = .prim) (hop : u.op = opRdb) :
      Effect u (ended
        { u with rbuf := overwrite u.rbuf m, rlen := BitVec.ofNat 9 (u.len.toNat + 1) })
  | wrotePair (hq : u.seq = .cfgWrite) (hi : u.cfgIdx.toNat < u.profile.length) :
      Effect u { u with cfgIdx := u.cfgIdx + 1 }
  | readPacket {m : List Byte} (hq : u.seq = .rxRdbFifo) (hm : m.length = u.len.toNat + 1) :
      Effect u
        { u with
          rbuf := overwrite u.rbuf m
          rlen := BitVec.ofNat 9 (u.len.toNat + 1)
          rxBits := decodePacket u.len m
          rxNbits := BitVec.ofNat 12 (8 * u.len.toNat)
          seq := .rxStbSidle }
  | builtFrame (hq : u.seq = .txFrame) (hl : payloadLegal u.plen = true) :
      Effect u
        { u with
          frame := overwrite u.frame (frameBytes u.sync16 u.txPayload)
          frameLen := 64
          seq := .txWrPktlen }
  | drained (hq : u.seq = .txCheck) : Effect u (ended { u with residual := 0, txOk := true })
  | undrained (r : Byte) (hq : u.seq = .txCheck) :
      Effect u (endedWith .txUnderflow r u.seq.code
        { u with residual := r.setWidth 7, txOk := false })

/-- R132: one external action, and then one effect. -/
def Does (s t : State) : Prop := ∃ u, Quiet s u ∧ Effect u t

theorem Quiet.refl (s : State) : Quiet s s := .mk s.csn s.trace id

theorem Quiet.event (s : State) (e : Event) : Quiet s (s.event e) := .mk s.csn (e :: s.trace) id

theorem Quiet.afterXfer (mosi miso : List Byte) (s : State) : Quiet s (afterXfer mosi miso s) :=
  .mk true _ fun _ => rfl

theorem Quiet.afterXferFail (mosi : List Byte) (s : State) : Quiet s (afterXferFail mosi s) :=
  .mk true _ fun _ => rfl

theorem Quiet.seq_eq {s u : State} (h : Quiet s u) : u.seq = s.seq := by cases h; rfl

/-- A step without external action. -/
theorem Effect.does {s t : State} (h : Effect s t) : Does s t := ⟨s, .refl s, h⟩

/-! ### The shared operations -/

section Ops

variable {s : State} {p q : FineState}

theorem txn_does {mosi : List Byte} {k : List Byte → State → Out}
    (hk : ∀ m u, Quiet s u → m.length = mosi.length → Post (Effect u) (k m u)) :
    Post (Does s) (txn mosi k s) := by
  apply txn_post
  · intro m hm
    have hu := Quiet.afterXfer mosi m s
    exact (hk m _ hu hm).mono fun _ ht => ⟨_, hu, ht⟩
  · exact ⟨_, .afterXferFail mosi s, .failed 0 (by decide) (by decide)⟩

theorem wr1_does {addr value : Byte} {k : State → Out}
    (hk : ∀ u, Quiet s u → Post (Effect u) (k u)) : Post (Does s) (wr1 addr value k s) :=
  txn_does fun _ u hu _ => hk u hu

theorem rd1_does {addr : Byte} {k : Byte → State → Out}
    (hk : ∀ v u, Quiet s u → Post (Effect u) (k v u)) : Post (Does s) (rd1 addr k s) :=
  txn_does fun _ u hu _ => hk _ u hu

theorem wrb_does {addr : Byte} {bytes : List Byte} {k : State → Out}
    (hk : ∀ u, Quiet s u → Post (Effect u) (k u)) : Post (Does s) (wrb addr bytes k s) :=
  txn_does fun _ u hu _ => hk u hu

theorem stb_does {addr : Byte} {k : Byte → Byte → State → Out}
    (hk : ∀ b c u, Quiet s u → Post (Effect u) (k b c u)) : Post (Does s) (stb addr k s) :=
  txn_does fun _ u hu _ => hk _ _ u hu

/-- R157: as many bytes are received as the closed interval has addresses. -/
theorem rdb_does {addr len : Byte} {k : List Byte → State → Out}
    (hk : ∀ m u, Quiet s u → m.length = len.toNat + 1 → Post (Effect u)
      (k m { u with rbuf := overwrite u.rbuf m, rlen := BitVec.ofNat 9 (len.toNat + 1) })) :
    Post (Does s) (rdb addr len k s) := by
  unfold rdb
  split
  · trivial
  · exact txn_does fun m u hu hm => hk m u hu (by simpa [rdbMosi] using hm)

theorem gdoSample_does {k : Bool → State → Out}
    (hk : ∀ g u, Quiet s u → Post (Effect u) (k g u)) : Post (Does s) (gdoSample k s) := by
  apply gdoSample_post
  · intro g
    have hu := Quiet.event s (.gdo g)
    exact (hk g _ hu).mono fun _ ht => ⟨_, hu, ht⟩
  · exact ⟨_, .event s .gdoFail, .failed 0 (by decide) (by decide)⟩

theorem finishCommand_does (u : State) : Post (Effect u) (finishCommand u) := by
  rw [finishCommand_eq]; exact .finished

/-- Moving on outside the wait loops, or inside one of them, keeps POLLCNT. -/
theorem goto_does {u : State} (hu : Quiet s u) (hq : s.seq = p) (hf : Follows p q)
    (hl : loopOf q = loopOf p) : Post (Effect u) (goto q u) := by
  obtain rfl : p = u.seq := by rw [hu.seq_eq, hq]
  exact .moved hf (.kept hl)

theorem wr1Then_does {addr value : Byte} (hq : s.seq = p) (hf : Follows p q)
    (hl : loopOf q = loopOf p) : Post (Does s) (wr1Then addr value q s) :=
  wr1_does fun _ hu => goto_does hu hq hf hl

theorem wrbThen_does {addr : Byte} {bytes : List Byte} (hq : s.seq = p) (hf : Follows p q)
    (hl : loopOf q = loopOf p) : Post (Does s) (wrbThen addr bytes q s) :=
  wrb_does fun _ hu => goto_does hu hq hf hl

theorem stbThen_does {addr : Byte} (hq : s.seq = p) (hf : Follows p q)
    (hl : loopOf q = loopOf p) : Post (Does s) (stbThen addr q s) :=
  stb_does fun _ _ _ hu => goto_does hu hq hf hl

theorem delayThen_does {ms : Nat} (hq : s.seq = p) (hf : Follows p q)
    (hl : loopOf q = loopOf p) : Post (Does s) (delayThen ms q s) :=
  have hu := Quiet.event s (.delay ms)
  (goto_does hu hq hf hl).mono fun _ ht => ⟨_, hu, ht⟩

theorem stbThenWait_does {addr : Byte} (hq : s.seq = p) (hf : Follows p q) :
    Post (Does s) (stbThenWait addr q s) :=
  stb_does fun _ _ u hu => by
    obtain rfl : p = u.seq := by rw [hu.seq_eq, hq]
    exact .moved hf .cleared

theorem stbFinish_does {addr : Byte} :
    Post (Does s) (stb addr (fun _ _ t => finishCommand t) s) :=
  stb_does fun _ _ u _ => finishCommand_does u

/-- R129: cancelled, timed out, or polled; an unsatisfied poll is counted below the limit only. -/
theorem pollStep_does {α : Type} {k : PollKind} {poll : (α → State → Out) → State → Out}
    {sat : α → Bool} {next stay : FineState}
    (hpoll : ∀ f : α → State → Out, (∀ v u, Quiet s u → Post (Effect u) (f v u)) →
      Post (Does s) (poll f s))
    (hq : s.seq = p) (hnext : Follows p next) (hstay : Follows p stay)
    (hl : loopOf stay = some k) : Post (Does s) (pollStep k poll sat next stay s) := by
  refine pollStep_split (Post (Does s)) ?_ ?_ fun hp => hpoll _ fun v u hu => ?_
  · exact (Effect.failed _ (by decide) (by decide)).does
  · exact (Effect.failed _ (by decide) (by decide)).does
  · have hlim : limitReached (k.limit u.cfg) u.pollCnt = false := by
      cases hu
      simp only [polls, Bool.and_eq_true, Bool.not_eq_true'] at hp
      exact hp.2
    obtain rfl : p = u.seq := by rw [hu.seq_eq, hq]
    split
    · exact .moved hnext .cleared
    · exact .moved hstay (.counted hl hlim)

end Ops

/-! ### The fine states -/

/-- R160: the one transaction of a primitive. -/
theorem busyStep_prim_does {s : State} (hq : s.seq = .prim) : Post (Does s) (busyStep s) := by
  simp only [busyStep, State.running, hq, State.runningPrimitive]
  split_ifs with h1 h2 h3 h4 h5
  · simp only [exec, execWr1, hq, if_pos h1]
    exact wr1_does fun u _ => finishCommand_does u
  · simp only [exec, execRd1, hq, if_pos h2, finishCommand_eq]
    exact rd1_does fun v u hu => by cases hu; exact .readSingle v hq h2
  · simp only [exec, execWrb, hq, if_pos h3]
    split
    · exact wrb_does fun u _ => finishCommand_does u
    · trivial
  · simp only [exec, execRdb, hq, if_pos h4, finishCommand_eq]
    exact rdb_does fun m u hu _ => by cases hu; exact .readBurst m hq h4
  · simp only [exec, execStb, hq, if_pos h5, finishCommand_eq]
    exact stb_does fun b c u hu => by cases hu; exact .strobed b c hq h5
  · trivial

/-- R189. -/
theorem cfgWriteStep_does {s : State} (hq : s.seq = .cfgWrite) :
    Post (Does s) (cfgWriteStep s) := by
  unfold cfgWriteStep
  split
  · next hpair =>
    have hi : s.cfgIdx.toNat < s.profile.length := (List.getElem?_eq_some_iff.mp hpair).1
    exact wr1_does fun u hu => by cases hu; exact .wrotePair hq hi
  · split
    · exact (finishCommand_does s).mono fun _ => Effect.does
    · trivial

/-- R216. -/
theorem rxReadFifo_does {s : State} (hq : s.seq = .rxRdbFifo) : Post (Does s) (rxReadFifo s) :=
  rdb_does fun m u hu hm => by cases hu; exact .readPacket hq hm

/-- R245. -/
theorem txBuildFrame_does {s : State} (hq : s.seq = .txFrame) : Post (Does s) (txBuildFrame s) := by
  unfold txBuildFrame
  split
  · next hl => exact (Effect.builtFrame hq hl).does
  · trivial

theorem txLoadFifo_does {s : State} (hq : s.seq = .txWrbFifo) : Post (Does s) (txLoadFifo s) := by
  unfold txLoadFifo
  split
  · exact wrbThen_does hq ⟨rfl, id, by decide⟩ rfl
  · trivial

/-- R259. -/
theorem txVerdict_does {s u : State} (v : Byte) (hq : s.seq = .txCheck) (hu : Quiet s u) :
    Post (Effect u) (txVerdict v u) := by
  cases hu
  by_cases hr : pendingBytes v = 0
  · simp only [txVerdict, hr, if_true, finishCommand_eq]
    exact .drained hq
  · simp only [txVerdict, hr, if_false, fail_eq (show ErrCode.txUnderflow ≠ .none by decide),
      beq_eq_false_iff_ne.mpr hr]
    exact .undrained _ hq

/-- R132: in every fine state but IDLE. -/
theorem busyStep_does {s : State} (hb : s.seq ≠ .idle) : Post (Does s) (busyStep s) := by
  cases hq : s.seq
  case idle => exact absurd hq hb
  case prim => exact busyStep_prim_does hq
  case cfgWrite => rw [busyStep_cfgWrite hq]; exact cfgWriteStep_does hq
  all_goals simp only [busyStep, State.running, hq, exec, execInit, execRxpkt, execTxpkt]
  case initStbSres => exact stbThen_does hq ⟨rfl, id, by decide⟩ rfl
  case initWrFreq2 => exact wr1Then_does hq ⟨rfl, id, by decide⟩ rfl
  case initWrFreq1 => exact wr1Then_does hq ⟨rfl, id, by decide⟩ rfl
  case initWrFreq0 => exact wr1Then_does hq ⟨rfl, id, by decide⟩ rfl
  case initWrSync1 => exact wr1Then_does hq ⟨rfl, id, by decide⟩ rfl
  case initWrSync0 => exact wr1Then_does hq ⟨rfl, id, by decide⟩ rfl
  case initWrbPatable => exact wrbThen_does hq ⟨rfl, id, by decide⟩ rfl
  case initStbSftx => exact stbThen_does hq ⟨rfl, id, by decide⟩ rfl
  case initStbSfrx => exact stbFinish_does
  case rxWrPktlen => exact wr1Then_does hq ⟨rfl, id, by decide⟩ rfl
  case rxStbSrx => exact stbThenWait_does hq ⟨rfl, id, by decide⟩
  case rxWaitRise =>
    exact pollStep_does (fun _ => gdoSample_does) hq ⟨rfl, id, by decide⟩ ⟨rfl, id, by decide⟩ rfl
  case rxWaitFall =>
    exact pollStep_does (fun _ => gdoSample_does) hq ⟨rfl, id, by decide⟩ ⟨rfl, id, by decide⟩ rfl
  case rxRdbFifo => exact rxReadFifo_does hq
  case rxStbSidle => exact stbThenWait_does hq ⟨rfl, id, by decide⟩
  case rxWaitIdle =>
    exact pollStep_does (fun _ => rd1_does) hq ⟨rfl, id, by decide⟩ ⟨rfl, id, by decide⟩ rfl
  case rxStbSfrx => exact stbFinish_does
  case txFrame => exact txBuildFrame_does hq
  case txWrPktlen => exact wr1Then_does hq ⟨rfl, id, by decide⟩ rfl
  case txStbSidle => exact stbThenWait_does hq ⟨rfl, id, by decide⟩
  case txWaitIdle =>
    exact pollStep_does (fun _ => rd1_does) hq ⟨rfl, id, by decide⟩ ⟨rfl, id, by decide⟩ rfl
  case txStbSftx => exact stbThen_does hq ⟨rfl, id, by decide⟩ rfl
  case txSettle1 => exact delayThen_does hq ⟨rfl, id, by decide⟩ rfl
  case txWrbFifo => exact txLoadFifo_does hq
  case txStbStx => exact stbThenWait_does hq ⟨rfl, id, by decide⟩
  case txPollDrain =>
    exact pollStep_does (fun _ => rd1_does) hq ⟨rfl, id, by decide⟩ ⟨rfl, id, by decide⟩ rfl
  case txBackoff => exact delayThen_does hq ⟨rfl, id, by decide⟩ rfl
  case txStbSftx2 => exact stbThen_does hq ⟨rfl, id, by decide⟩ rfl
  case txStbSfrx => exact stbThen_does hq ⟨rfl, id, by decide⟩ rfl
  case txSettle2 => exact delayThen_does hq ⟨rfl, id, by decide⟩ rfl
  case txCheck => exact rd1_does fun v _ hu => txVerdict_does v hq hu

/-! ### What a step in IDLE may write -/

/-- R122 `First(OP)`. -/
def firstState : Instr → FineState
  | .wr1 _ _ => .prim
  | .rd1 _ => .prim
  | .wrb _ _ _ => .prim
  | .rdb _ _ => .prim
  | .stb _ => .prim
  | .init _ _ => .initStbSres
  | .cfgrx => .cfgWrite
  | .cfgtx => .cfgWrite
  | .rxpkt _ => .rxWrPktlen
  | .txpkt _ _ _ => .txFrame

/-- R25, R122: what acceptance latches besides OP; R28: TXPKT clears TX_OK. -/
def latch (i : Instr) (s : State) : State :=
  match i with
  | .wr1 addr val => { s with addr := addr, val := val }
  | .rd1 addr => { s with addr := addr }
  | .wrb addr wlen wbuf => { s with addr := addr, wlen := wlen, wbuf := overwrite s.wbuf wbuf }
  | .rdb addr len => { s with addr := addr, len := len }
  | .stb addr => { s with addr := addr }
  | .init freqw sync16 => { s with freqw := freqw, sync16 := sync16 }
  | .cfgrx => { s with cfgSel := .rx, cfgIdx := 0 }
  | .cfgtx => { s with cfgSel := .tx, cfgIdx := 0 }
  | .rxpkt len => { s with len := len }
  | .txpkt sync16 plen pbits =>
    { s with sync16 := sync16, plen := plen, pbits := overwrite s.pbits pbits, txOk := false }

/-- R122: the acceptance of every command has one shape. -/
theorem exec_of_idle {s : State} (hq : s.seq = .idle) (i : Instr) :
    exec i s = admitCommand (check s.cfg i) (firstState i) (latch i (accepted i s)) := by
  cases i with
  | wr1 => simp only [exec, execWr1, hq]; rfl
  | rd1 => simp only [exec, execRd1, hq]; rfl
  | wrb => simp only [exec, execWrb, hq]; rfl
  | rdb => simp only [exec, execRdb, hq]; rfl
  | stb => simp only [exec, execStb, hq]; rfl
  | init => simp only [exec, execInit, hq]; rfl
  | cfgrx => simp only [exec, execCfgrx, hq]; rfl
  | cfgtx => simp only [exec, execCfgtx, hq]; rfl
  | rxpkt => simp only [exec, execRxpkt, hq]; rfl
  | txpkt => simp only [exec, execTxpkt, hq]; rfl

section Latch

variable (i : Instr) (s : State)

@[simp] theorem latch_csn : (latch i s).csn = s.csn := by cases i <;> rfl
@[simp] theorem latch_seq : (latch i s).seq = s.seq := by cases i <;> rfl
@[simp] theorem latch_op : (latch i s).op = s.op := by cases i <;> rfl
@[simp] theorem latch_pollCnt : (latch i s).pollCnt = s.pollCnt := by cases i <;> rfl
@[simp] theorem latch_frame : (latch i s).frame = s.frame := by cases i <;> rfl
@[simp] theorem latch_frameLen : (latch i s).frameLen = s.frameLen := by cases i <;> rfl
@[simp] theorem latch_rbuf : (latch i s).rbuf = s.rbuf := by cases i <;> rfl
@[simp] theorem latch_rlen : (latch i s).rlen = s.rlen := by cases i <;> rfl
@[simp] theorem latch_rdata : (latch i s).rdata = s.rdata := by cases i <;> rfl
@[simp] theorem latch_stat0 : (latch i s).stat0 = s.stat0 := by cases i <;> rfl
@[simp] theorem latch_stat1 : (latch i s).stat1 = s.stat1 := by cases i <;> rfl
@[simp] theorem latch_rxBits : (latch i s).rxBits = s.rxBits := by cases i <;> rfl
@[simp] theorem latch_rxNbits : (latch i s).rxNbits = s.rxNbits := by cases i <;> rfl
@[simp] theorem latch_residual : (latch i s).residual = s.residual := by cases i <;> rfl
@[simp] theorem latch_done : (latch i s).done = s.done := by cases i <;> rfl
@[simp] theorem latch_err : (latch i s).err = s.err := by cases i <;> rfl
@[simp] theorem latch_errInfo : (latch i s).errInfo = s.errInfo := by cases i <;> rfl
@[simp] theorem latch_errSeq : (latch i s).errSeq = s.errSeq := by cases i <;> rfl
@[simp] theorem latch_cfg : (latch i s).cfg = s.cfg := by cases i <;> rfl

/-- R28: TX_OK is kept by the acceptance of every command but TXPKT, which clears it. -/
theorem latch_txOk : (latch i s).txOk = (s.txOk && i.opcode != opTxpkt) := by
  cases i <;> simp [latch, Instr.opcode, opTxpkt, opWr1, opRd1, opWrb, opRdb, opStb, opInit,
    opCfgrx, opCfgtx, opRxpkt]

end Latch

/-- Everything a step in IDLE may write, the port apart. -/
inductive Acceptance (s : State) : State → Prop where
  | nothing : Acceptance s s
  | reserved {op : Byte} (hop : op ≠ opTxpkt) : Acceptance s (acceptReserved op s)
  | refused (i : Instr) {e : ErrCode} {info : Byte} (hc : check s.cfg i = some (e, info)) :
      Acceptance s (endedWith e info s.seq.code (latch i (accepted i s)))
  | admitted (i : Instr) (hc : check s.cfg i = none) :
      Acceptance s { latch i (accepted i s) with seq := firstState i }

theorem exec_accepts {s : State} (hq : s.seq = .idle) (i : Instr) :
    Post (Acceptance s) (exec i s) := by
  rw [exec_of_idle hq]
  cases hc : check s.cfg i with
  | none => exact .admitted i hc
  | some v =>
    obtain ⟨e, info⟩ := v
    rw [admitCommand, fail_eq (check_error hc), latch_seq]
    exact .refused i hc

/-- R98: TXPKT's opcode is not reserved. -/
theorem ne_opTxpkt_of_reserved {c : Record} {op : Byte} (h : decode c = .error (.reservedOp op)) :
    op ≠ opTxpkt := by
  rw [reserved_op h]
  intro hop
  simp [decode, hop] at h

/-- R121, R122: one entry leaves the port at most, and one acceptance follows. -/
theorem idleStep_does {s : State} (hq : s.seq = .idle) :
    Post (fun t => ∃ rest, Acceptance { s with host := rest } t) (idleStep s) := by
  unfold idleStep
  split
  · exact ⟨s.host, .nothing⟩
  · exact ⟨_, .nothing⟩
  · next rest _ =>
    split
    · exact (exec_accepts (s := { s with host := rest }) hq _).mono fun _ ht => ⟨_, ht⟩
    · next hdec => exact ⟨rest, .reserved (ne_opTxpkt_of_reserved hdec)⟩

/-! ### The invariant at reset and at the end of a command -/

/-- The clauses of `SafeState` that do not look at SEQ, OP or the status. -/
structure RegistersSafe (s : State) : Prop where
  cfg_wf : s.cfg.wf = true
  csn_released : s.csn = true
  rx_bits : s.rxNbits.toNat = s.rxBits.length ∧ s.rxBits.length % 8 = 0
  rlen_fits : s.rlen.toNat ≤ 256
  residual_zero : s.txOk = true → s.residual = 0

theorem registersSafe_of_safe {s : State} (h : SafeState s) : RegistersSafe s where
  cfg_wf := h.cfg_wf
  csn_released := h.csn_released
  rx_bits := h.rx_bits
  rlen_fits := h.rlen_fits
  residual_zero htx := (h.tx_ok htx).1

/-- In IDLE with POLLCNT 0 only the status has still to be looked at. -/
theorem RegistersSafe.safe_of_idle {s : State} (h : RegistersSafe s) (hq : s.seq = .idle)
    (hn : s.pollCnt = 0) (herr : s.err = .none → s.errInfo = 0 ∧ s.errSeq = 0)
    (hhw : s.err ≠ .syncFmt) (htx : s.txOk = true → s.op = opTxpkt → s.err = .none) :
    SafeState s where
  cfg_wf := h.cfg_wf
  csn_released := h.csn_released
  seq_fits := by rw [hq]; rfl
  wrb_fits hp := by simp [hq] at hp
  rdb_fits hp := by simp [hq] at hp
  rx_fits hb := absurd hq hb
  tx_fits hb := absurd hq hb
  cfg_sel hp := by simp [hq] at hp
  cfg_idx hp := by simp [hq] at hp
  frame_ready hp := by simp [hq, frameBuilt] at hp
  poll_count := by simp [pollCountOk, hq, hn, loopOf]
  busy_clean hb := absurd hq hb
  err_clean := herr
  err_hardware := hhw
  rx_bits := h.rx_bits
  rlen_fits := h.rlen_fits
  tx_ok hok := ⟨h.residual_zero hok, htx hok⟩
  tx_running hb := absurd hq hb

/-- R124 `Complete(0, 0)`. -/
theorem RegistersSafe.ended {s : State} (h : RegistersSafe s) : SafeState (ended s) :=
  safe_of_idle (s := Safety.ended s) { h with } rfl rfl (fun _ => ⟨rfl, rfl⟩) (by simp [Safety.ended])
    fun _ _ => rfl

/-- R290 `Fail(e, info)`: TX_OK must not claim a packet of the TXPKT that fails (R260). -/
theorem RegistersSafe.endedWith {s : State} {e : ErrCode} (h : RegistersSafe s) (info : Byte)
    (code : BitVec 6) (he : e ≠ .none) (hs : e ≠ .syncFmt) (htx : s.op = opTxpkt → s.txOk = false) :
    SafeState (endedWith e info code s) :=
  safe_of_idle (s := Safety.endedWith e info code s) { h with } rfl rfl (fun hn => absurd hn he) hs
    fun hok hop => absurd hok (by simp [Safety.endedWith, htx hop])

/-- R34, R320: after `rst` the registers are safe whatever they were before. -/
theorem onReset_safe {s : State} (hcfg : s.cfg.wf = true) : SafeState (onReset s) :=
  RegistersSafe.safe_of_idle
    { cfg_wf := hcfg
      csn_released := rfl
      rx_bits := ⟨rfl, rfl⟩
      rlen_fits := Nat.zero_le _
      residual_zero := fun _ => rfl }
    rfl rfl (fun _ => ⟨rfl, rfl⟩) (by simp [onReset, State.reset]) fun _ _ => rfl

theorem wf_ofFree (l : Option Nat) : (PollLimit.ofFree l).wf = true := by
  cases l <;> simp [PollLimit.ofFree, PollLimit.wf]

/-- R8: the parameters offered at reset are legal, whatever the free ones are. -/
theorem offered_wf : Config.offered.wf = true := by
  simp [Config.wf, Config.offered, wf_ofFree]

/-- Settles O47: the reset state is the reset of itself, with the offered parameters. -/
theorem invariantHoldsAtReset : Obligations.InvariantHoldsAtReset :=
  onReset_safe (s := State.reset) offered_wf

/-! ### The invariant through acceptance -/

/-- `SafeState` looks neither at the inputs nor at the step counter. -/
theorem advance_safe {s : State} (h : SafeState s) : SafeState (advance s) := { h with }

theorem host_safe {s : State} (h : SafeState s) (rest : List (Option Record)) :
    SafeState { s with host := rest } := { h with }

theorem exists_of_opcode_eq_wrb {i : Instr} (h : i.opcode = opWrb) :
    ∃ addr wlen wbuf, i = .wrb addr wlen wbuf := by
  cases i with
  | wrb addr wlen wbuf => exact ⟨_, _, _, rfl⟩
  | _ => simp [Instr.opcode] at h

theorem exists_of_opcode_eq_rdb {i : Instr} (h : i.opcode = opRdb) :
    ∃ addr len, i = .rdb addr len := by
  cases i with
  | rdb addr len => exact ⟨_, _, rfl⟩
  | _ => simp [Instr.opcode] at h

theorem exists_of_opcode_eq_rxpkt {i : Instr} (h : i.opcode = opRxpkt) : ∃ len, i = .rxpkt len := by
  cases i with
  | rxpkt len => exact ⟨_, rfl⟩
  | _ => simp [Instr.opcode] at h

theorem exists_of_opcode_eq_txpkt {i : Instr} (h : i.opcode = opTxpkt) :
    ∃ sync16 plen pbits, i = .txpkt sync16 plen pbits := by
  cases i with
  | txpkt sync16 plen pbits => exact ⟨_, _, _, rfl⟩
  | _ => simp [Instr.opcode] at h

theorem seqFits_firstState (i : Instr) : seqFits (firstState i) i.opcode = true := by
  cases i <;> rfl

theorem loopOf_firstState (i : Instr) : loopOf (firstState i) = none := by cases i <;> rfl

theorem frameBuilt_firstState (i : Instr) : frameBuilt (firstState i) = false := by cases i <;> rfl

/-- R187, R190: CFGRX and CFGTX start at the first pair of their own profile. -/
theorem latch_of_cfgWrite {i : Instr} (h : firstState i = .cfgWrite) (s : State) :
    (latch i s).cfgIdx = 0 ∧
      i.opcode = (match (latch i s).cfgSel with | .rx => opCfgrx | .tx => opCfgtx) := by
  cases i with
  | cfgrx => exact ⟨rfl, rfl⟩
  | cfgtx => exact ⟨rfl, rfl⟩
  | _ => cases h

theorem latch_accepted_registersSafe {s : State} (h : SafeState s) (i : Instr) :
    RegistersSafe (latch i (accepted i s)) where
  cfg_wf := by rw [latch_cfg]; exact h.cfg_wf
  csn_released := by rw [latch_csn]; exact h.csn_released
  rx_bits := by rw [latch_rxNbits, latch_rxBits]; exact h.rx_bits
  rlen_fits := by rw [latch_rlen]; exact h.rlen_fits
  residual_zero htx := by
    rw [latch_txOk, Bool.and_eq_true] at htx
    rw [latch_residual]
    exact (h.tx_ok htx.1).1

theorem latch_accepted_op (i : Instr) (s : State) : (latch i (accepted i s)).op = i.opcode := by
  rw [latch_op]; rfl

/-- R28, R240. -/
theorem latch_accepted_txOk {i : Instr} {s : State}
    (hop : (latch i (accepted i s)).op = opTxpkt) : (latch i (accepted i s)).txOk = false := by
  rw [latch_accepted_op] at hop
  simp [latch_txOk, hop]

/-- R122, R123: a command that passes Check starts in a safe state. -/
theorem admitted_safe {s : State} (h : SafeState s) {i : Instr} (hc : check s.cfg i = none) :
    SafeState { latch i (accepted i s) with seq := firstState i } :=
  have hr := latch_accepted_registersSafe h i
  { cfg_wf := hr.cfg_wf
    csn_released := hr.csn_released
    seq_fits := by
      rw [latch_accepted_op]
      exact seqFits_firstState i
    wrb_fits := fun _ hop => by
      obtain ⟨addr, wlen, wbuf, rfl⟩ := exists_of_opcode_eq_wrb (latch_accepted_op i s ▸ hop)
      exact hc
    rdb_fits := fun _ hop => by
      obtain ⟨addr, len, rfl⟩ := exists_of_opcode_eq_rdb (latch_accepted_op i s ▸ hop)
      exact hc
    rx_fits := fun _ hop => by
      obtain ⟨len, rfl⟩ := exists_of_opcode_eq_rxpkt (latch_accepted_op i s ▸ hop)
      exact hc
    tx_fits := fun _ hop => by
      obtain ⟨sync16, plen, pbits, rfl⟩ := exists_of_opcode_eq_txpkt (latch_accepted_op i s ▸ hop)
      exact hc
    cfg_sel := fun hq => by
      rw [latch_accepted_op]
      exact (latch_of_cfgWrite hq (accepted i s)).2
    cfg_idx := fun hq => by
      rw [(latch_of_cfgWrite hq (accepted i s)).1]
      exact Nat.zero_le _
    frame_ready := fun hq => by simp [frameBuilt_firstState] at hq
    poll_count := by simp [pollCountOk, loopOf_firstState, accepted]
    busy_clean := fun _ => ⟨latch_done .., latch_err ..⟩
    err_clean := fun _ => ⟨latch_errInfo .., latch_errSeq ..⟩
    err_hardware := by simp [accepted]
    rx_bits := hr.rx_bits
    rlen_fits := hr.rlen_fits
    tx_ok := fun hok => ⟨hr.residual_zero hok, fun _ => latch_err ..⟩
    tx_running := fun _ => latch_accepted_txOk }

/-- R281: no verdict of Check is the error of the host's own helper. -/
theorem check_ne_syncFmt {cfg : Config} {i : Instr} {e : ErrCode} {info : Byte}
    (hc : check cfg i = some (e, info)) : e ≠ .syncFmt := by
  rintro rfl
  cases i with
  | wrb => simp only [check, checkWriteLength] at hc; split at hc <;> cases hc
  | rdb => simp only [check, checkBurstRead] at hc; split at hc <;> cases hc
  | rxpkt => simp only [check, checkBurstRead] at hc; split at hc <;> cases hc
  | txpkt => simp only [check, checkPayload] at hc; split_ifs at hc <;> cases hc
  | _ => cases hc

/-- R281: a command that Check refuses ends in a safe state. -/
theorem refused_safe {s : State} (h : SafeState s) {i : Instr} {e : ErrCode} {info : Byte}
    (hc : check s.cfg i = some (e, info)) (code : BitVec 6) :
    SafeState (endedWith e info code (latch i (accepted i s))) :=
  (latch_accepted_registersSafe h i).endedWith info code (check_error hc) (check_ne_syncFmt hc)
    latch_accepted_txOk

/-- R98, R282. -/
theorem acceptReserved_safe {s : State} (h : SafeState s) {op : Byte} (hop : op ≠ opTxpkt) :
    SafeState (acceptReserved op s) := by
  have hr : RegistersSafe (beginCommand op (.acceptReserved op) s) :=
    { registersSafe_of_safe h with }
  rw [acceptReserved, complete_error (by decide)]
  exact hr.endedWith op _ (by decide) (by decide) fun hop' => absurd hop' hop

theorem Acceptance.safe {s t : State} (h : SafeState s) (ht : Acceptance s t) : SafeState t := by
  cases ht with
  | nothing => exact h
  | reserved hop => exact acceptReserved_safe h hop
  | refused i hc => exact refused_safe h hc _
  | admitted i hc => exact admitted_safe h hc

/-! ### The invariant through a running command -/

theorem Quiet.safe {s u : State} (h : SafeState s) (hu : Quiet s u) : SafeState u := by
  cases hu with
  | mk csn tr hc => exact { h with csn_released := hc h.csn_released }

/-- R129: the count stays within the limit, for it is advanced below the limit only. -/
theorem Counts.pollCountOk {u : State} {q : FineState} {n : Nat} (h : pollCountOk u = true)
    (hn : Counts u q n) : pollCountOk { u with seq := q, pollCnt := n } = true := by
  cases hn with
  | cleared => simp only [Safety.pollCountOk]; grind
  | kept hl => simpa only [Safety.pollCountOk, hl] using h
  | counted hl hlim => simp only [Safety.pollCountOk, hl]; grind [limitReached]

/-- R122: moving on within a command keeps every clause, for each of them speaks of the command, of
POLLCNT, or of a fine state that is entered elsewhere. -/
theorem moved_safe {u : State} (h : SafeState u) (hb : u.seq ≠ .idle) {q : FineState} {n : Nat}
    (hf : Follows u.seq q) (hn : Counts u q n) : SafeState { u with seq := q, pollCnt := n } :=
  { h with
    seq_fits := (congrFun hf.fits u.op).trans h.seq_fits
    wrb_fits := fun hq => absurd hq hf.entered.2.1
    rdb_fits := fun hq => absurd hq hf.entered.2.1
    rx_fits := fun _ => h.rx_fits hb
    tx_fits := fun _ => h.tx_fits hb
    cfg_sel := fun hq => absurd hq hf.entered.2.2
    cfg_idx := fun hq => absurd hq hf.entered.2.2
    frame_ready := fun hq => h.frame_ready (hf.built hq)
    poll_count := hn.pollCountOk h.poll_count
    busy_clean := fun _ => h.busy_clean hb
    tx_running := fun _ => h.tx_running hb }

/-- R27: the received bytes of a burst read are at most 256. -/
theorem toNat_rlen_le (len : Byte) : (BitVec.ofNat 9 (len.toNat + 1)).toNat ≤ 256 := by
  rw [BitVec.toNat_ofNat]
  omega

/-- R216: LEN bytes unpack to `8 * LEN` bits, which RX_NBITS holds. -/
theorem decodePacket_fits {len : Byte} {m : List Byte} (hm : m.length = len.toNat + 1) :
    (BitVec.ofNat 12 (8 * len.toNat)).toNat = (decodePacket len m).length ∧
      (decodePacket len m).length % 8 = 0 := by
  have hlen : (decodePacket len m).length = 8 * len.toNat := by
    simp [decodePacket, hm]
  rw [hlen, BitVec.toNat_ofNat]
  omega

/-- R216: the step of RX_RDB_FIFO. -/
theorem readPacket_safe {u : State} (h : SafeState u) (hq : u.seq = .rxRdbFifo) {m : List Byte}
    (hm : m.length = u.len.toNat + 1) :
    SafeState
      { u with
        rbuf := overwrite u.rbuf m
        rlen := BitVec.ofNat 9 (u.len.toNat + 1)
        rxBits := decodePacket u.len m
        rxNbits := BitVec.ofNat 12 (8 * u.len.toNat)
        seq := .rxStbSidle } := by
  have hread : SafeState
      { u with
        rbuf := overwrite u.rbuf m
        rlen := BitVec.ofNat 9 (u.len.toNat + 1)
        rxBits := decodePacket u.len m
        rxNbits := BitVec.ofNat 12 (8 * u.len.toNat) } :=
    { h with rx_bits := decodePacket_fits hm, rlen_fits := toNat_rlen_le u.len }
  exact moved_safe hread (by simp [hq]) (hq ▸ ⟨rfl, id, by decide⟩) (.kept (by rw [hq]; rfl))

/-- R243, R244: the frame of a legal payload fills the 64-byte buffer. -/
theorem length_frameBytes (sync : BitVec 16) {b : BitString} (hb : b.length ≤ 496)
    (h8 : b.length % 8 = 0) : (frameBytes sync b).length = 64 := by
  apply length_pack
  simp only [frameBits, preamble, paddingBits, wordBits, frameCapBits, syncBits,
    List.length_append, List.length_map, List.length_range]
  omega

theorem length_txPayload {s : State} (hl : s.plen.toNat ≤ 496) :
    s.txPayload.length = s.plen.toNat := by
  simp [State.txPayload, hl]

/-- R245: the step of TX_FRAME leaves the frame of the latched operands. -/
theorem builtFrame_safe {u : State} (h : SafeState u) (hq : u.seq = .txFrame)
    (hl : payloadLegal u.plen = true) :
    SafeState
      { u with
        frame := overwrite u.frame (frameBytes u.sync16 u.txPayload)
        frameLen := 64
        seq := .txWrPktlen } := by
  obtain ⟨hle, h8⟩ := payloadLegal_iff.mp hl
  have hpay := length_txPayload hle
  have hframe : (frameBytes u.sync16 u.txPayload).length = 64 :=
    length_frameBytes u.sync16 (by omega) (by omega)
  have hb : u.seq ≠ .idle := by simp [hq]
  exact
    { h with
      seq_fits := by have hfit := h.seq_fits; rwa [hq] at hfit
      wrb_fits := nofun
      rdb_fits := nofun
      rx_fits := fun _ => h.rx_fits hb
      tx_fits := fun _ => h.tx_fits hb
      cfg_sel := nofun
      cfg_idx := nofun
      frame_ready := fun _ => ⟨rfl, by
        rw [toList_overwrite]
        exact overwriteList_of_length_eq _ _ (by simpa using hframe)⟩
      poll_count := by have hn := h.poll_count; rwa [pollCountOk, hq] at hn
      busy_clean := fun _ => h.busy_clean hb
      tx_running := fun _ => h.tx_running hb }

/-- R189: CFG_IDX stays within the profile. -/
theorem wrotePair_safe {u : State} (h : SafeState u) (hi : u.cfgIdx.toNat < u.profile.length) :
    SafeState { u with cfgIdx := u.cfgIdx + 1 } :=
  { h with
    cfg_idx := fun _ => by
      change (u.cfgIdx + 1).toNat ≤ u.profile.length
      rw [BitVec.toNat_add]
      have hmod := Nat.mod_le (u.cfgIdx.toNat + (1 : BitVec 8).toNat) (2 ^ 8)
      have hone : (1 : BitVec 8).toNat = 1 := rfl
      omega }

/-- R124, R260: what a running command may write leaves a safe state safe. -/
theorem Effect.safe {u t : State} (h : SafeState u) (hb : u.seq ≠ .idle) (ht : Effect u t) :
    SafeState t := by
  have hr := registersSafe_of_safe h
  cases ht with
  | failed info he hs => exact hr.endedWith info _ he hs (h.tx_running hb)
  | moved hf hn => exact moved_safe h hb hf hn
  | finished => exact hr.ended
  | readSingle v => exact RegistersSafe.ended { hr with }
  | strobed b c => exact RegistersSafe.ended { hr with }
  | readBurst m => exact RegistersSafe.ended { hr with rlen_fits := toNat_rlen_le u.len }
  | wrotePair _ hi => exact wrotePair_safe h hi
  | readPacket hq hm => exact readPacket_safe h hq hm
  | builtFrame hq hl => exact builtFrame_safe h hq hl
  | drained => exact RegistersSafe.ended { hr with residual_zero := fun _ => rfl }
  | undrained r =>
    have hr' : RegistersSafe { u with residual := r.setWidth 7, txOk := false } :=
      { hr with residual_zero := nofun }
    exact hr'.endedWith r _ (by decide) (by decide) fun _ => rfl

/-- R132: every step, whatever its inputs. -/
theorem step_safe {s : State} (h : SafeState s) : Post SafeState (step s) := by
  cases hrst : s.input.rst with
  | true =>
    rw [step_of_rst hrst]
    exact advance_safe (onReset_safe h.cfg_wf)
  | false =>
    refine step_post hrst (fun hq => ?_) (fun hb => ?_) fun _ => advance_safe
    · exact (idleStep_does hq).mono fun _ ⟨rest, ht⟩ => ht.safe (host_safe h rest)
    · exact (busyStep_does hb).mono fun _ ⟨_, hu, ht⟩ =>
        ht.safe (hu.safe h) (by rwa [hu.seq_eq])

/-- Settles O48: a reset restores the reset values, a step in IDLE accepts, a step of a running
command has one of the effects of `Effect`; each gives a safe state. -/
theorem invariantKeptByEveryStep : Obligations.InvariantKeptByEveryStep := by
  intro s t h hstep
  exact (step_safe h).of_next hstep

/-! ### Which step may write which register -/

/-- R26, R27, R28, R30, of one step: its result registers move only where their rules say. -/
def ResultsFit (s t : State) : Prop :=
  (t.rdata ≠ s.rdata → s.seq = .prim ∧ s.op = opRd1) ∧
  (t.stat0 ≠ s.stat0 ∨ t.stat1 ≠ s.stat1 → s.seq = .prim ∧ s.op = opStb) ∧
  (t.rbuf ≠ s.rbuf ∨ t.rlen ≠ s.rlen → s.seq = .prim ∧ s.op = opRdb ∨ s.seq = .rxRdbFifo) ∧
  (t.rxBits ≠ s.rxBits ∨ t.rxNbits ≠ s.rxNbits → s.seq = .rxRdbFifo) ∧
  (t.residual ≠ s.residual → s.seq = .txCheck) ∧
  (t.txOk ≠ s.txOk → s.seq = .txCheck ∨ s.seq = .idle ∧ t.op = opTxpkt ∧ t.txOk = false) ∧
  (t.frame ≠ s.frame ∨ t.frameLen ≠ s.frameLen → s.seq = .txFrame)

theorem Quiet.resultsFit {s u t : State} (hu : Quiet s u) (h : ResultsFit u t) : ResultsFit s t := by
  cases hu; exact h

theorem Effect.resultsFit {u t : State} (h : Effect u t) : ResultsFit u t := by
  cases h with
  | failed => simp [ResultsFit, endedWith]
  | moved => simp [ResultsFit]
  | finished => simp [ResultsFit, ended]
  | readSingle v hq hop => simp [ResultsFit, ended, hq, hop]
  | strobed b c hq hop => simp [ResultsFit, ended, hq, hop]
  | readBurst m hq hop => simp [ResultsFit, ended, hq, hop]
  | wrotePair => simp [ResultsFit]
  | readPacket hq => simp [ResultsFit, hq]
  | builtFrame hq => simp [ResultsFit, hq]
  | drained hq => simp [ResultsFit, ended, hq]
  | undrained r hq => simp [ResultsFit, endedWith, hq]

/-- R28, R240: in IDLE only the acceptance of TXPKT writes a result, TX_OK. -/
theorem Acceptance.resultsFit {s t : State} (hq : s.seq = .idle) (h : Acceptance s t) :
    ResultsFit s t := by
  have htx (i : Instr) (hne : (latch i (accepted i s)).txOk ≠ s.txOk) :
      i.opcode = opTxpkt ∧ (latch i (accepted i s)).txOk = false := by
    rw [latch_txOk] at hne ⊢
    by_cases hop : i.opcode = opTxpkt
    · simp [hop]
    · simp only [accepted, Bool.and_eq_left_iff_imp, bne_iff_ne, ne_eq, hop, not_false_eq_true,
        implies_true, not_true_eq_false] at hne
  cases h with
  | nothing => simp [ResultsFit]
  | reserved => simp [ResultsFit, acceptReserved, complete]
  | refused i => simpa [ResultsFit, endedWith, accepted, hq] using htx i
  | admitted i => simpa [ResultsFit, accepted, hq] using htx i

/-- Settles O53: case by case over what a step in IDLE and a step of a running command may write. -/
theorem resultsWrittenOnlyWhereSaid : Obligations.ResultsWrittenOnlyWhereSaid := by
  intro s t hrst hstep
  have hpost : Post (ResultsFit s) (step s) := by
    refine step_post (P := ResultsFit s) hrst (fun hq => ?_) (fun hb => ?_) fun _ => id
    · exact (idleStep_does hq).mono fun _ ⟨rest, ht⟩ =>
        ht.resultsFit (s := { s with host := rest }) hq
    · exact (busyStep_does hb).mono fun _ ⟨_, hu, ht⟩ => hu.resultsFit ht.resultsFit
  exact hpost.of_next hstep

/-- R25, R23, of one step: the operand latches and CFG_SEL stay, CFG_IDX moves in CFG_WRITE by one. -/
def LatchesHeld (s t : State) : Prop :=
  t.op = s.op ∧ t.addr = s.addr ∧ t.val = s.val ∧ t.len = s.len ∧ t.wlen = s.wlen ∧
  t.wbuf = s.wbuf ∧ t.freqw = s.freqw ∧ t.sync16 = s.sync16 ∧ t.plen = s.plen ∧
  t.pbits = s.pbits ∧ t.cfgSel = s.cfgSel ∧
  (t.cfgIdx ≠ s.cfgIdx → s.seq = .cfgWrite ∧ t.cfgIdx = s.cfgIdx + 1)

theorem Quiet.latchesHeld {s u t : State} (hu : Quiet s u) (h : LatchesHeld u t) :
    LatchesHeld s t := by
  cases hu; exact h

theorem LatchesHeld.refl (s : State) : LatchesHeld s s := by simp [LatchesHeld]

/-- Every effect but that of CFG_WRITE writes none of these registers. -/
theorem Effect.latchesHeld {u t : State} (h : Effect u t) : LatchesHeld u t := by
  cases h with
  | wrotePair hq => simp [LatchesHeld, hq]
  | _ => exact LatchesHeld.refl u

theorem Quiet.cfg_eq {s u : State} (hu : Quiet s u) : u.cfg = s.cfg := by cases hu; rfl

theorem Effect.cfg_eq {u t : State} (h : Effect u t) : t.cfg = u.cfg := by cases h <;> rfl

theorem Acceptance.cfg_eq {s t : State} (h : Acceptance s t) : t.cfg = s.cfg := by
  cases h with
  | nothing => rfl
  | reserved => rfl
  | refused i => exact latch_cfg i _
  | admitted i => exact latch_cfg i _

/-- R8: no step, not even a reset, writes the parameters. -/
theorem step_cfg (s : State) : Post (fun t => t.cfg = s.cfg) (step s) := by
  cases hrst : s.input.rst with
  | true => rw [step_of_rst hrst]; rfl
  | false =>
    refine step_post hrst (fun hq => ?_) (fun hb => ?_) fun _ => id
    · exact (idleStep_does hq).mono fun _ ⟨_, ht⟩ => ht.cfg_eq
    · exact (busyStep_does hb).mono fun _ ⟨_, hu, ht⟩ => ht.cfg_eq.trans hu.cfg_eq

theorem busyStep_latchesHeld {s : State} (hb : s.seq ≠ .idle) :
    Post (LatchesHeld s) (busyStep s) :=
  (busyStep_does hb).mono fun _ ⟨_, hu, ht⟩ => hu.latchesHeld ht.latchesHeld

/-- Settles O54: no step writes the parameters, and no effect of a running command the latches. -/
theorem latchesHeldWhileRunning : Obligations.LatchesHeldWhileRunning := by
  intro s t hstep
  refine ⟨(step_cfg s).of_next hstep, fun hrst hb => ?_⟩
  have hpost : Post (LatchesHeld s) (step s) :=
    step_post hrst (fun hq => absurd hq hb) busyStep_latchesHeld fun _ => id
  exact hpost.of_next hstep

/-! ### Reset values and codes -/

/-- Settles O1: register by register, as R34 lists them. -/
theorem resetStateValues : Obligations.ResetStateValues :=
  ⟨rfl, rfl, rfl, rfl, rfl, rfl, rfl, rfl, rfl⟩

/-- R24, R129: the fine states of each wait loop. -/
theorem loopOf_eq_some_iff (q : FineState) (k : PollKind) : loopOf q = some k ↔ (q, k) ∈
    [(.rxWaitRise, .edgeRise), (.rxWaitFall, .edgeFall), (.rxWaitIdle, .marc),
     (.txWaitIdle, .marc), (.txPollDrain, .drain), (.txBackoff, .drain)] := by
  cases q <;> simp [loopOf, eq_comm]

/-- Settles O60: each code by its row of the table. -/
theorem codesOfStatesErrorsAndWaits : Obligations.CodesOfStatesErrorsAndWaits := by
  refine ⟨fun q => ?_, fun e => ?_, fun k => ?_, loopOf_eq_some_iff, fun cfg => ?_⟩
  · cases q <;> decide
  · cases e <;> decide
  · cases k <;> decide
  · exact ⟨rfl, rfl, rfl, rfl⟩

end Sys2Proof.Registers
end

section
/-! SUPPORT and proofs for 30_encoding.md. `decode_eq_ok_iff` says once which commands the decoder
makes of which records (R96); the claims about the decoder are read off the rows of `Decodes`. -/

namespace Sys2Proof.Encoding

open Sys2Proof.Laws Sys2Proof.Safety

/-! ### What the decoder accepts -/

/-- R96, one constructor per row: the opcode, and the operands it selects from the record. -/
inductive Decodes (c : Record) : Instr → Prop where
  | wr1 (h : c.op = opWr1) : Decodes c (.wr1 c.addr c.val)
  | rd1 (h : c.op = opRd1) : Decodes c (.rd1 c.addr)
  | wrb (h : c.op = opWrb) : Decodes c (.wrb c.addr c.wlen (c.wbuf.toList.take c.wlen.toNat))
  | rdb (h : c.op = opRdb) : Decodes c (.rdb c.addr c.len)
  | stb (h : c.op = opStb) : Decodes c (.stb c.addr)
  | init (h : c.op = opInit) : Decodes c (.init c.freqw c.sync16)
  | cfgrx (h : c.op = opCfgrx) : Decodes c .cfgrx
  | cfgtx (h : c.op = opCfgtx) : Decodes c .cfgtx
  | rxpkt (h : c.op = opRxpkt) : Decodes c (.rxpkt c.len)
  | txpkt (h : c.op = opTxpkt) :
      Decodes c (.txpkt c.sync16 c.plen (c.pbits.toList.take c.plen.toNat))

theorem decode_eq_ok_iff {c : Record} {i : Instr} : decode c = .ok i ↔ Decodes c i := by
  constructor
  · intro h
    unfold decode at h
    repeat' split at h
    all_goals cases h
    all_goals
      constructor
      assumption
  · intro h
    cases h <;> simp [decode, *]

/-- R96: a command decodes from a record of its own opcode only. -/
theorem Decodes.opcode_eq {c : Record} {i : Instr} (h : Decodes c i) : i.opcode = c.op := by
  cases h <;> next h => exact h.symm

/-- R96, the opcode column. -/
def opcodes : List Byte :=
  [opWr1, opRd1, opWrb, opRdb, opStb, opInit, opCfgrx, opCfgtx, opRxpkt, opTxpkt]

/-- R96's opcodes as bytes and as numbers. -/
theorem mem_opcodes_iff_toNat {b : Byte} :
    b ∈ opcodes ↔ b.toNat ∈ [0x01, 0x02, 0x03, 0x04, 0x05, 0x10, 0x11, 0x12, 0x20, 0x21] := by
  simp [opcodes, ← BitVec.toNat_inj]

theorem opcode_mem_opcodes (i : Instr) : i.opcode ∈ opcodes := by
  cases i <;> simp [Instr.opcode, opcodes]

/-- Every opcode of R96 has its row. -/
theorem exists_decodes {c : Record} (h : c.op ∈ opcodes) : ∃ i, Decodes c i := by
  simp only [opcodes, List.mem_cons, List.not_mem_nil, or_false] at h
  rcases h with h | h | h | h | h | h | h | h | h | h
  · exact ⟨_, .wr1 h⟩
  · exact ⟨_, .rd1 h⟩
  · exact ⟨_, .wrb h⟩
  · exact ⟨_, .rdb h⟩
  · exact ⟨_, .stb h⟩
  · exact ⟨_, .init h⟩
  · exact ⟨_, .cfgrx h⟩
  · exact ⟨_, .cfgtx h⟩
  · exact ⟨_, .rxpkt h⟩
  · exact ⟨_, .txpkt h⟩

/-- Settles O2: a decoded command has the record's opcode, each of the ten opcodes has a row of
`Decodes`, and the decoder's one rejection names the record's opcode. -/
theorem decodesExactlyTheTenOpcodes : Obligations.DecodesExactlyTheTenOpcodes := by
  intro c
  refine ⟨fun i h => (decode_eq_ok_iff.mp h).opcode_eq, fun hmem => ?_, fun hmem => ?_⟩
  · obtain ⟨i, hi⟩ := exists_decodes (mem_opcodes_iff_toNat.mpr hmem)
    exact ⟨i, decode_eq_ok_iff.mpr hi⟩
  · cases h : decode c with
    | ok i =>
      have hop : i.opcode = c.op := (decode_eq_ok_iff.mp h).opcode_eq
      exact absurd (mem_opcodes_iff_toNat.mp (hop ▸ opcode_mem_opcodes i)) hmem
    | error e =>
      cases e with
      | reservedOp op => rw [reserved_op h]

/-! ### Between a command and its record -/

/-- R25, R97: a payload as long as its length field says, capped by the buffer, comes back from the
padded buffer. -/
theorem take_padTo_of_fits {α : Type} (d : α) {n m : Nat} {l : List α} (h : l.length = min m n) :
    (padTo d n l).take m = l := by
  rw [List.take_eq_take_min, length_padTo, ← h]
  exact take_padTo d n l (by omega)

/-- Settles O3: each command's record is in the command's row, and the two payloads come back from
their buffers. -/
theorem decodeOfEncode : Obligations.DecodeOfEncode := by
  intro i hi
  cases i with
  | wrb addr wlen wbuf =>
    have hlen : wbuf.length = min wlen.toNat 64 := by simpa [Instr.wellFormed, wbufFits] using hi
    have hdec : decode (encode (.wrb addr wlen wbuf)) =
        .ok (.wrb addr wlen ((bufferOf 0 64 wbuf).toList.take wlen.toNat)) := rfl
    rw [hdec, toList_bufferOf, take_padTo_of_fits 0 hlen]
  | txpkt sync16 plen pbits =>
    have hlen : pbits.length = min plen.toNat 496 := by simpa [Instr.wellFormed, pbitsFit] using hi
    have hdec : decode (encode (.txpkt sync16 plen pbits)) =
        .ok (.txpkt sync16 plen ((bufferOf false 496 pbits).toList.take plen.toNat)) := rfl
    rw [hdec, toList_bufferOf, take_padTo_of_fits false hlen]
  | _ => rfl

/-- R25: what is taken from a buffer is as long as the length field says, capped by the buffer. -/
theorem Decodes.wellFormed {c : Record} {i : Instr} (h : Decodes c i) : i.wellFormed = true := by
  cases h with
  | wrb => simp [Instr.wellFormed, wbufFits]
  | txpkt => simp [Instr.wellFormed, pbitsFit]
  | _ => rfl

/-- R96: a row reads no other operands than those it lists. -/
theorem Decodes.of_operandsAgree {c c' : Record} {i : Instr} (h : Decodes c i)
    (ha : OperandsAgree c c') : Decodes c' i := by
  have hop : c'.op = c.op := ha.op
  cases h with
  | wr1 h =>
    obtain ⟨haddr, hval⟩ := ha.wr1 h
    exact haddr ▸ hval ▸ .wr1 (hop.trans h)
  | rd1 h => exact ha.rd1 h ▸ .rd1 (hop.trans h)
  | wrb h =>
    obtain ⟨haddr, hwlen, hwbuf⟩ := ha.wrb h
    rw [← take_toList_congr hwbuf, ← haddr, ← hwlen]
    exact .wrb (hop.trans h)
  | rdb h =>
    obtain ⟨haddr, hlen⟩ := ha.rdb h
    exact haddr ▸ hlen ▸ .rdb (hop.trans h)
  | stb h => exact ha.stb h ▸ .stb (hop.trans h)
  | init h =>
    obtain ⟨hfreqw, hsync16⟩ := ha.init h
    exact hfreqw ▸ hsync16 ▸ .init (hop.trans h)
  | cfgrx h => exact .cfgrx (hop.trans h)
  | cfgtx h => exact .cfgtx (hop.trans h)
  | rxpkt h => exact ha.rxpkt h ▸ .rxpkt (hop.trans h)
  | txpkt h =>
    obtain ⟨hsync16, hplen, hpbits⟩ := ha.txpkt h
    rw [← take_toList_congr hpbits, ← hsync16, ← hplen]
    exact .txpkt (hop.trans h)

/-- Settles O5: row by row of `Decodes`; a well-formed command decodes from its own record. -/
theorem decodedIsWellFormed : Obligations.DecodedIsWellFormed := by
  constructor
  · intro l i h
    have hwf : i.wellFormed = true := (decode_eq_ok_iff.mp h).wellFormed
    exact ⟨hwf, decodeOfEncode i hwf⟩
  · intro c c' i h ha
    exact decode_eq_ok_iff.mpr ((decode_eq_ok_iff.mp h).of_operandsAgree ha)

/-! ### The opcode words -/

/-- Settles O6: the decoder computes, and the twelve words are fixed. -/
theorem decodesTableWords : Obligations.DecodesTableWords := by
  unfold Obligations.DecodesTableWords
  decide

end Sys2Proof.Encoding
end

section
/-! SUPPORT and proofs for 40_sequencer_control.md. `exec_of_admitted` and `exec_of_refused` say
what acceptance does (R122, R123). `busyStep_acts` says once what a step of a running command is
(R132): that a step always answers, that a command ends, that commands do not overlap and what a
transport failure comes to are read off the cases of `Acts`. -/

namespace Sys2Proof.Sequencer

open Sys2Proof.Machine Sys2Proof.Laws Sys2Proof.Safety Sys2Proof.Scope Sys2Proof.Registers

/-! ### Acceptance -/

/-- R122: a good verdict latches the operands and enters `First(OP)`. -/
theorem exec_of_admitted {s : State} {i : Instr} (hq : s.seq = .idle)
    (hc : check s.cfg i = none) :
    exec i s = .next { latch i (accepted i s) with seq := firstState i } := by
  rw [exec_of_idle hq, hc]; rfl

/-- R122, R124: a bad verdict latches the operands all the same and completes in IDLE, whose code
is 0. -/
theorem exec_of_refused {s : State} {i : Instr} {e : ErrCode} {info : Byte} (hq : s.seq = .idle)
    (hc : check s.cfg i = some (e, info)) :
    exec i s = .next (endedWith e info 0 (latch i (accepted i s))) := by
  have hcode : (latch i (accepted i s)).seq.code = 0 := by
    rw [latch_seq]; exact congrArg FineState.code hq
  rw [exec_of_idle hq, hc, admitCommand, fail_eq (check_error hc), hcode]

/-- Settles O15: no check refuses the three. -/
theorem acceptSingleTransactions : Obligations.AcceptSingleTransactions := by
  intro s a v hq
  exact ⟨exec_of_admitted hq rfl, exec_of_admitted hq rfl, exec_of_admitted hq rfl⟩

/-- Settles O18: no check refuses the three. -/
theorem acceptSetup : Obligations.AcceptSetup := by
  intro s f y hq
  exact ⟨exec_of_admitted hq rfl, exec_of_admitted hq rfl, exec_of_admitted hq rfl⟩

/-- Settles O16, by line 2 of Check. -/
theorem acceptWriteBurst : Obligations.AcceptWriteBurst := by
  intro s a n l hq
  refine ⟨fun hle => ?_, fun hlt => ?_⟩
  · exact exec_of_admitted hq (checkWriteLength_eq_none.mpr hle)
  · exact exec_of_refused hq (if_pos hlt)

/-- Settles O17, by line 3 of Check. -/
theorem acceptReadBurst : Obligations.AcceptReadBurst := by
  intro s a n hq
  refine ⟨fun hfits => ?_, fun hover => ?_⟩
  · exact exec_of_admitted hq (checkBurstRead_eq_none.mpr hfits)
  · exact exec_of_refused hq (checkBurstRead_eq_some hover)

/-- Settles O19, by line 4 of Check. -/
theorem acceptReceive : Obligations.AcceptReceive := by
  intro s n hq
  refine ⟨fun hfits => ?_, fun hover => ?_⟩
  · exact exec_of_admitted hq (checkBurstRead_eq_none.mpr hfits)
  · exact exec_of_refused hq (checkBurstRead_eq_some hover)

/-- R123 line 5. -/
theorem checkPayload_of_oversize {n : BitVec 16} (h : 496 < n.toNat) :
    checkPayload n = some (.oversize, 0) := if_pos h

/-- R123 line 6. -/
theorem checkPayload_of_unaligned {n : BitVec 16} (hle : n.toNat ≤ 496) (h8 : n.toNat % 8 ≠ 0) :
    checkPayload n = some (.align, BitVec.ofNat 8 (n.toNat % 8)) := by
  have hfits : ¬ maxPayloadBits < n.toNat := Nat.not_lt.mpr hle
  rw [checkPayload, if_neg hfits, if_pos h8]

/-- Settles O20, by lines 5 and 6 of Check in that order. -/
theorem acceptTransmit : Obligations.AcceptTransmit := by
  intro s y n b hq
  refine ⟨fun hlt => ?_, fun hle h8 => ?_, fun hle h8 => ?_⟩
  · exact exec_of_refused hq (checkPayload_of_oversize hlt)
  · exact exec_of_refused hq (checkPayload_of_unaligned hle h8)
  · exact exec_of_admitted hq (checkPayload_eq_none.mpr ⟨hle, h8⟩)

/-! ### The step around a meaning -/

theorem busyStep_of_running {s : State} {i : Instr} (h : s.running = some i) :
    busyStep s = exec i s := by
  rw [busyStep, h]

/-- Settles O7: the branch of a step in IDLE. -/
theorem stepAcceptsThePresented : Obligations.StepAcceptsThePresented := by
  intro s c rest i hrst hq hhost hdec
  rw [step_of_idle hrst hq, idleStep, hhost]
  simp only [hdec]

/-- Settles O8: the branch of a step in any other state. -/
theorem stepRunsTheRunning : Obligations.StepRunsTheRunning := by
  intro s i hrst hrun
  rw [step_of_busy hrst (running_not_idle hrun), busyStep_of_running hrun]

/-- Settles O10: both ways in which the port can present no command. -/
theorem idleWithoutCommandChangesNothing : Obligations.IdleWithoutCommandChangesNothing := by
  intro s rest hrst hq
  refine ⟨fun hhost => ?_, fun hhost => ?_⟩
  · have hidle : idleStep s = .next s := by rw [idleStep, hhost]
    rw [step_of_idle hrst hq, hidle]; rfl
  · have hidle : idleStep s = .next { s with host := rest } := by rw [idleStep, hhost]
    rw [step_of_idle hrst hq, hidle]; rfl

/-- The port is outside what a running command may write (log 4). -/
theorem host_of_does {s t : State} (h : Does s t) : t.host = s.host := by
  obtain ⟨u, hu, ht⟩ := h
  cases hu
  cases ht <;> rfl

/-- No step of a running command takes its own inputs away; `advance` does (log 5). -/
theorem env_of_does {s t : State} (h : Does s t) : t.env = s.env := by
  obtain ⟨u, hu, ht⟩ := h
  cases hu
  cases ht <;> rfl

/-- Settles O12: a reset leaves the port (log 8), and no effect of a running command writes it. -/
theorem busyStepKeepsThePort : Obligations.BusyStepKeepsThePort := by
  intro s t hb hstep
  have hpost : Post (fun t => t.host = s.host) (step s) := by
    cases hrst : s.input.rst with
    | true => rw [step_of_rst hrst]; rfl
    | false =>
      exact step_post hrst (fun hq => absurd hq hb)
        (fun hb => (busyStep_does hb).mono fun _ => host_of_does) fun _ => id
  exact hpost.of_next hstep

/-! ### Held off -/

/-- Command `i` is not the running one: the running command, if any, has another opcode. -/
def NotRunning (i : Instr) (s : State) : Prop := ∀ j, s.running = some j → j.opcode ≠ i.opcode

/-- R160: OP names a primitive, with the latched operands. -/
theorem exists_runningPrimitive {s : State} (h : seqFits .prim s.op = true) :
    ∃ j, s.runningPrimitive = some j ∧ j.opcode = s.op := by
  simp only [seqFits, Bool.or_eq_true, beq_iff_eq] at h
  rcases h with (((h | h) | h) | h) | h <;> simp [State.runningPrimitive, h, Instr.opcode]

/-- R160: in PRIM a primitive that does not run is not the one OP names. -/
theorem NotRunning.op_ne {i : Instr} {s : State} (h : NotRunning i s) (hq : s.seq = .prim)
    (hi : seqFits .prim i.opcode = true) : s.op ≠ i.opcode := by
  intro hop
  obtain ⟨j, hj, hjop⟩ := exists_runningPrimitive (s := s) (hop ▸ hi)
  have hrun : s.running = some j := by rw [State.running, hq, ← hj]
  exact h j hrun (hjop.trans hop)

/-- Settles O13: in every fine state in which a meaning does something, its command is the running
one. -/
theorem heldOffCommandChangesNothing : Obligations.HeldOffCommandChangesNothing := by
  intro i s hb hrun
  have hn : NotRunning i s := hrun
  cases i with
  | wr1 =>
    simp only [exec, execWr1]
    split
    · next hq => exact absurd hq hb
    · next hq => exact if_neg (hn.op_ne hq rfl)
    · rfl
  | rd1 =>
    simp only [exec, execRd1]
    split
    · next hq => exact absurd hq hb
    · next hq => exact if_neg (hn.op_ne hq rfl)
    · rfl
  | wrb =>
    simp only [exec, execWrb]
    split
    · next hq => exact absurd hq hb
    · next hq => exact if_neg (hn.op_ne hq rfl)
    · rfl
  | rdb =>
    simp only [exec, execRdb]
    split
    · next hq => exact absurd hq hb
    · next hq => exact if_neg (hn.op_ne hq rfl)
    · rfl
  | stb =>
    simp only [exec, execStb]
    split
    · next hq => exact absurd hq hb
    · next hq => exact if_neg (hn.op_ne hq rfl)
    · rfl
  | init =>
    simp only [exec, execInit]
    split
    case h_1 hq => exact absurd hq hb
    case h_11 => rfl
    all_goals next hq => exact absurd rfl (hn (.init s.freqw s.sync16) (by rw [State.running, hq]))
  | cfgrx =>
    simp only [exec, execCfgrx]
    split
    · next hq => exact absurd hq hb
    · next hq => exact if_neg fun hsel => hn .cfgrx (by rw [State.running, hq, hsel]) rfl
    · rfl
  | cfgtx =>
    simp only [exec, execCfgtx]
    split
    · next hq => exact absurd hq hb
    · next hq => exact if_neg fun hsel => hn .cfgtx (by rw [State.running, hq, hsel]) rfl
    · rfl
  | rxpkt =>
    simp only [exec, execRxpkt]
    split
    case h_1 hq => exact absurd hq hb
    case h_10 => rfl
    all_goals next hq => exact absurd rfl (hn (.rxpkt s.len) (by rw [State.running, hq]))
  | txpkt =>
    simp only [exec, execTxpkt]
    split
    case h_1 hq => exact absurd hq hb
    case h_16 => rfl
    all_goals
      next hq =>
        exact absurd rfl (hn (.txpkt s.sync16 s.plen s.txPayload) (by rw [State.running, hq]))

/-! ### One step of a running command -/

/-- What the rest of a step leaves once its external action is made, in `u`: the command goes on
with fewer steps ahead, or it is over, and not for a failed action. -/
inductive Rest (u t : State) : Prop where
  | goesOn (hb : t.seq ≠ .idle) (htr : t.trace = u.trace) (herr : t.err = u.err)
      (hn : SafeState u → limitsFinite u.cfg → remaining t < remaining u)
  | isOver {e : ErrCode} {info : Byte} (hq : t.seq = .idle)
      (htr : t.trace = .done e info :: u.trace) (herr : t.err = e) (he : e ≠ .transport)

/-- R128: the fine states whose step samples GDO0. -/
abbrev SamplesLine (s : State) : Prop := s.seq = .rxWaitRise ∨ s.seq = .rxWaitFall

/-- What a step of a running command is: a stop, outside the invariant only, the end of a wait
(R129), the one transaction the fine state stands for (R22), a sample, a delay, or no external
action. -/
inductive Acts (s : State) : Out → Prop where
  | stops (r : Fault) (h : ¬ SafeState s) : Acts s (.fault r)
  | waitEnds {k : PollKind} {e : ErrCode} (info : Byte) (hl : loopOf s.seq = some k)
      (hp : polls k s = false) (he : e ≠ .transport) :
      Acts s (.next (endedWith e info s.seq.code s))
  | exchanges {mosi : List Byte} {k : List Byte → State → Out} (ht : transacts s = true)
      (hm : frameSent s = mosi) (hk : ∀ m u, Quiet s u → Sat (Rest u) (k m u)) :
      Acts s (txn mosi k s)
  | samples {k : Bool → State → Out} (hq : SamplesLine s)
      (hk : ∀ g u, Quiet s u → Sat (Rest u) (k g u)) : Acts s (gdoSample k s)
  | delays (ms : Nat) {t : State} (ht : transacts s = false) (hq : ¬ SamplesLine s)
      (h : Rest (s.event (.delay ms)) t) : Acts s (.next t)
  | computes {t : State} (ht : transacts s = false) (hq : ¬ SamplesLine s)
      (h : Rest s t) : Acts s (.next t)

/-- Moving to `q` with POLLCNT `n` keeps the command running and brings its end nearer. -/
def MovesOn (s : State) (q : FineState) (n : Nat) : Prop :=
  q ≠ .idle ∧ remaining { s with seq := q, pollCnt := n } < remaining s

/-- The step of `s` makes the transaction `mosi`. -/
def Sends (s : State) (mosi : List Byte) : Prop := transacts s = true ∧ frameSent s = mosi

theorem MovesOn.rest {s u : State} {q : FineState} {n : Nat} (h : MovesOn s q n) (hu : Quiet s u) :
    Rest u { u with seq := q, pollCnt := n } := by
  cases hu
  exact .goesOn h.1 rfl rfl fun _ _ => h.2

theorem rest_ended {u v : State} (h : v.trace = u.trace) : Rest u (ended v) :=
  .isOver rfl (congrArg (Event.done .none 0 :: ·) h) rfl (by decide)

theorem finishCommand_rest {u v : State} (h : v.trace = u.trace) :
    Sat (Rest u) (finishCommand v) := by
  rw [finishCommand_eq]
  exact rest_ended h

/-- R123 line 2, log 19: WRB_MAX is at most the length of the buffer. -/
theorem wlen_le_of_safe {s : State} (h : SafeState s) (hq : s.seq = .prim) (hop : s.op = opWrb) :
    s.wlen.toNat ≤ 64 := by
  have hle := checkWriteLength_eq_none.mp (h.wrb_fits hq hop)
  have hmax : s.cfg.wrbMax ≤ 64 := by
    have hwf := h.cfg_wf
    simp only [Config.wf, Bool.and_eq_true, decide_eq_true_iff] at hwf
    exact hwf.2
  omega

/-- R188, R189. -/
theorem profile_length_le {s : State} (h : s.cfg.wf = true) : s.profile.length ≤ 255 := by
  simp only [Config.wf, Bool.and_eq_true, decide_eq_true_iff] at h
  unfold State.profile
  split
  · omega
  · omega

/-- R189: CFG_IDX does not wrap while a pair is ahead. -/
theorem remaining_wrotePair {s : State} (hlen : s.profile.length ≤ 255) (hq : s.seq = .cfgWrite)
    (hi : s.cfgIdx.toNat < s.profile.length) :
    remaining { s with cfgIdx := s.cfgIdx + 1 } < remaining s := by
  have hidx : (s.cfgIdx + 1).toNat = s.cfgIdx.toNat + 1 := by
    rw [BitVec.toNat_add_of_lt]
    · rfl
    · show s.cfgIdx.toNat + 1 < 256
      omega
  have hnew : remaining { s with cfgIdx := s.cfgIdx + 1 } =
      s.profile.length - (s.cfgIdx + 1).toNat + 1 := by
    simp only [remaining, hq]; rfl
  have hold : remaining s = s.profile.length - s.cfgIdx.toNat + 1 := by simp only [remaining, hq]
  omega

theorem goto_rest {s u : State} {q : FineState} (h : MovesOn s q s.pollCnt) (hu : Quiet s u) :
    Sat (Rest u) (goto q u) := by
  have hr := h.rest hu
  cases hu
  exact hr

theorem lt_limitNat {l : PollLimit} {n : Nat} (hl : l ≠ .inf) (h : limitReached l n = false) :
    n < limitNat l := by
  cases l with
  | inf => exact absurd rfl hl
  | polls k => simpa [limitReached, limitNat] using h

theorem limit_ne_inf {cfg : Config} (h : limitsFinite cfg) (k : PollKind) : k.limit cfg ≠ .inf := by
  obtain ⟨he, hm, hd⟩ := h
  cases k with
  | edgeRise => exact he
  | edgeFall => exact he
  | marc => exact hm
  | drain => exact hd

section Ops

variable {s : State} {q : FineState}

theorem wr1_acts {addr value : Byte} {k : State → Out} (hs : Sends s (wr1Mosi addr value))
    (hk : ∀ u, Quiet s u → Sat (Rest u) (k u)) : Acts s (wr1 addr value k s) :=
  .exchanges hs.1 hs.2 fun _ u hu => hk u hu

theorem rd1_acts {addr : Byte} {k : Byte → State → Out} (hs : Sends s (rd1Mosi addr))
    (hk : ∀ v u, Quiet s u → Sat (Rest u) (k v u)) : Acts s (rd1 addr k s) :=
  .exchanges hs.1 hs.2 fun _ u hu => hk _ u hu

theorem wrb_acts {addr : Byte} {bytes : List Byte} {k : State → Out}
    (hs : Sends s (wrbMosi addr bytes)) (hk : ∀ u, Quiet s u → Sat (Rest u) (k u)) :
    Acts s (wrb addr bytes k s) :=
  .exchanges hs.1 hs.2 fun _ u hu => hk u hu

theorem stb_acts {addr : Byte} {k : Byte → Byte → State → Out} (hs : Sends s (stbMosi addr))
    (hk : ∀ b c u, Quiet s u → Sat (Rest u) (k b c u)) : Acts s (stb addr k s) :=
  .exchanges hs.1 hs.2 fun _ u hu => hk _ _ u hu

/-- R158: a burst read that Check admitted never stops on its sum. -/
theorem rdb_acts {addr len : Byte} {k : List Byte → State → Out}
    (hc : SafeState s → checkBurstRead s.cfg addr len = none) (hs : Sends s (rdbMosi addr len))
    (hk : ∀ m u, Quiet s u → Sat (Rest u)
      (k m { u with rbuf := overwrite u.rbuf m, rlen := BitVec.ofNat 9 (len.toNat + 1) })) :
    Acts s (rdb addr len k s) := by
  unfold rdb
  split
  · next hover =>
    refine .stops _ fun hsafe => ?_
    rw [burstOverflows_iff] at hover
    exact checkBurstRead_eq_none.mp (hc hsafe) hover
  · exact .exchanges hs.1 hs.2 hk

theorem wr1Then_acts {addr value : Byte} (hs : Sends s (wr1Mosi addr value))
    (hm : MovesOn s q s.pollCnt) : Acts s (wr1Then addr value q s) :=
  wr1_acts hs fun _ => goto_rest hm

theorem wrbThen_acts {addr : Byte} {bytes : List Byte} (hs : Sends s (wrbMosi addr bytes))
    (hm : MovesOn s q s.pollCnt) : Acts s (wrbThen addr bytes q s) :=
  wrb_acts hs fun _ => goto_rest hm

theorem stbThen_acts {addr : Byte} (hs : Sends s (stbMosi addr)) (hm : MovesOn s q s.pollCnt) :
    Acts s (stbThen addr q s) :=
  stb_acts hs fun _ _ _ => goto_rest hm

theorem stbThenWait_acts {addr : Byte} (hs : Sends s (stbMosi addr)) (hm : MovesOn s q 0) :
    Acts s (stbThenWait addr q s) :=
  stb_acts hs fun _ _ _ => hm.rest

theorem stbFinish_acts {addr : Byte} (hs : Sends s (stbMosi addr)) :
    Acts s (stb addr (fun _ _ t => finishCommand t) s) :=
  stb_acts hs fun _ _ _ _ => finishCommand_rest rfl

theorem delayThen_acts {ms : Nat} (ht : transacts s = false) (hq : ¬ SamplesLine s)
    (hm : MovesOn s q s.pollCnt) :
    Acts s (delayThen ms q s) :=
  .delays ms ht hq (hm.rest (.event s (.delay ms)))

/-- R129, R294: an unsatisfied poll is made below the limit only, so that it uses up one of the
polls ahead. -/
theorem pollStep_acts {α : Type} {k : PollKind} {poll : (α → State → Out) → State → Out}
    {sat : α → Bool} {next stay : FineState} (hl : loopOf s.seq = some k)
    (hpoll : ∀ f : α → State → Out, (∀ v u, Quiet s u → Sat (Rest u) (f v u)) → Acts s (poll f s))
    (hnext : MovesOn s next 0) (hb : stay ≠ .idle)
    (hstay : s.pollCnt < limitNat (k.limit s.cfg) →
      remaining { s with seq := stay, pollCnt := s.pollCnt + 1 } < remaining s) :
    Acts s (pollStep k poll sat next stay s) := by
  by_cases hp : polls k s = true
  · rw [pollStep_poll hp]
    refine hpoll _ fun v u hu => ?_
    split
    · exact hnext.rest hu
    · have hlim : limitReached (k.limit s.cfg) s.pollCnt = false := by
        simp only [polls, Bool.and_eq_true, Bool.not_eq_true'] at hp
        exact hp.2
      cases hu
      exact .goesOn hb rfl rfl fun _ hfin => hstay (lt_limitNat (limit_ne_inf hfin k) hlim)
  · have hends := Bool.eq_false_iff.mpr hp
    refine pollStep_split (Acts s) ?_ ?_ fun hp' => absurd hp' hp
    · exact .waitEnds _ hl hends (by decide)
    · exact .waitEnds _ hl hends (by decide)

end Ops

/-- R160: the one transaction of a primitive; R122, R123: a safe state has a primitive's opcode and
operands that Check admitted. -/
theorem busyStep_prim_acts {s : State} (hq : s.seq = .prim) : Acts s (busyStep s) := by
  have hsends {mosi : List Byte} (hm : frameSent s = mosi) : Sends s mosi :=
    ⟨by rw [transacts, hq], hm⟩
  simp only [busyStep, State.running, hq, State.runningPrimitive]
  split_ifs with h1 h2 h3 h4 h5
  · simp only [exec, execWr1, hq, if_pos h1]
    exact wr1_acts (hsends (by simp [frameSent, hq, h1])) fun u _ => finishCommand_rest rfl
  · simp only [exec, execRd1, hq, if_pos h2]
    exact rd1_acts (hsends (by simp [frameSent, hq, h2])) fun v u _ => finishCommand_rest rfl
  · simp only [exec, execWrb, hq, if_pos h3]
    split
    · exact wrb_acts (hsends (by simp [frameSent, hq, h3])) fun u _ => finishCommand_rest rfl
    · next hlong => exact .stops _ fun hsafe => hlong (wlen_le_of_safe hsafe hq h3)
  · simp only [exec, execRdb, hq, if_pos h4]
    exact rdb_acts (fun hsafe => hsafe.rdb_fits hq h4) (hsends (by simp [frameSent, hq, h4]))
      fun m u _ => finishCommand_rest rfl
  · simp only [exec, execStb, hq, if_pos h5]
    exact stb_acts (hsends (by simp [frameSent, hq, h5])) fun b c u _ => finishCommand_rest rfl
  · refine .stops _ fun hsafe => ?_
    have hfit : seqFits .prim s.op = true := hq ▸ hsafe.seq_fits
    simp only [seqFits, Bool.or_eq_true, beq_iff_eq] at hfit
    tauto

/-- R189: a pair ahead is written; in a safe state CFG_IDX is not past the last. -/
theorem cfgWriteStep_acts {s : State} (hq : s.seq = .cfgWrite) : Acts s (cfgWriteStep s) := by
  unfold cfgWriteStep
  split
  · next a v hpair =>
    have hi : s.cfgIdx.toNat < s.profile.length := (List.getElem?_eq_some_iff.mp hpair).1
    refine wr1_acts ⟨?_, ?_⟩ fun u hu => ?_
    · simp [transacts, hq, hi]
    · simp [frameSent, hq, hpair]
    · cases hu
      exact .goesOn (by simp [hq]) rfl rfl fun hsafe _ =>
        remaining_wrotePair (profile_length_le hsafe.cfg_wf) hq hi
  · next hpair =>
    have hi : s.profile.length ≤ s.cfgIdx.toNat := List.getElem?_eq_none_iff.mp hpair
    split
    · rw [finishCommand_eq]
      exact .computes (by simp [transacts, hq]; omega) (by simp [hq]) (rest_ended rfl)
    · next hne => exact .stops _ fun hsafe => hne (Nat.le_antisymm (hsafe.cfg_idx hq) hi)

/-- R216: a safe state has a burst read that Check admitted (R123 line 4). -/
theorem rxReadFifo_acts {s : State} (hb : s.seq ≠ .idle)
    (hfit : seqFits s.seq = seqFits .rxRdbFifo)
    (hs : Sends s (rdbMosi s.cfg.map.rxfifo s.len)) (hm : MovesOn s .rxStbSidle s.pollCnt) :
    Acts s (rxReadFifo s) := by
  refine rdb_acts (fun hsafe => ?_) hs fun m u hu => ?_
  · have hop := hsafe.seq_fits
    rw [hfit] at hop
    exact hsafe.rx_fits hb (by simpa [seqFits] using hop)
  · cases hu
    exact .goesOn hm.1 rfl rfl fun _ _ => hm.2

/-- R245: a safe state has a legal payload. -/
theorem txBuildFrame_acts {s : State} (hq : s.seq = .txFrame) : Acts s (txBuildFrame s) := by
  unfold txBuildFrame
  split
  · exact .computes (by rw [transacts, hq]) (by simp [hq])
      (.goesOn nofun rfl rfl fun _ _ => by simp [remaining, hq])
  · next hl =>
    refine .stops _ fun hsafe => hl ?_
    have hop : seqFits .txFrame s.op = true := hq ▸ hsafe.seq_fits
    have hpay := hsafe.tx_fits (by simp [hq]) (by simpa [seqFits] using hop)
    exact payloadLegal_iff.mpr (checkPayload_eq_none.mp hpay)

/-- R252: a safe state has a frame of 64 bytes. -/
theorem txLoadFifo_acts {s : State} (hq : s.seq = .txWrbFifo) : Acts s (txLoadFifo s) := by
  unfold txLoadFifo
  split
  · exact wrbThen_acts ⟨by rw [transacts, hq], by rw [frameSent, hq]⟩
      ⟨nofun, by simp [remaining, hq]⟩
  · next hl =>
    refine .stops _ fun hsafe => hl ?_
    rw [(hsafe.frame_ready (by rw [hq]; rfl)).1]
    decide

/-- R259. -/
theorem txVerdict_rest (v : Byte) (u : State) : Sat (Rest u) (txVerdict v u) := by
  simp only [txVerdict]
  split
  · exact finishCommand_rest rfl
  · rw [fail_eq (by decide)]
    exact .isOver rfl rfl rfl (by decide)

/-- A state whose SEQ is written out, so that what depends on SEQ computes. -/
theorem exists_with_seq {s : State} {p : FineState} (h : s.seq = p) :
    ∃ s' : State, s = { s' with seq := p } := ⟨s, by rw [← h]⟩

/-- R132: in every fine state but IDLE, row by row of R22's table: the row's transaction, the state
it leads to, and the one step fewer that is then ahead. -/
theorem busyStep_acts {s : State} (hb : s.seq ≠ .idle) : Acts s (busyStep s) := by
  cases hq : s.seq
  case idle => exact absurd hq hb
  case prim => exact busyStep_prim_acts hq
  case cfgWrite => rw [busyStep_cfgWrite hq]; exact cfgWriteStep_acts hq
  case txFrame =>
    simp only [busyStep, State.running, hq, exec, execTxpkt]
    exact txBuildFrame_acts hq
  case txWrbFifo =>
    simp only [busyStep, State.running, hq, exec, execTxpkt]
    exact txLoadFifo_acts hq
  all_goals
    obtain ⟨s, rfl⟩ := exists_with_seq hq
    simp only [busyStep, State.running, exec, execInit, execRxpkt, execTxpkt]
  case initStbSres => exact stbThen_acts ⟨rfl, rfl⟩ ⟨nofun, Nat.lt_succ_self _⟩
  case initWrFreq2 => exact wr1Then_acts ⟨rfl, rfl⟩ ⟨nofun, Nat.lt_succ_self _⟩
  case initWrFreq1 => exact wr1Then_acts ⟨rfl, rfl⟩ ⟨nofun, Nat.lt_succ_self _⟩
  case initWrFreq0 => exact wr1Then_acts ⟨rfl, rfl⟩ ⟨nofun, Nat.lt_succ_self _⟩
  case initWrSync1 => exact wr1Then_acts ⟨rfl, rfl⟩ ⟨nofun, Nat.lt_succ_self _⟩
  case initWrSync0 => exact wr1Then_acts ⟨rfl, rfl⟩ ⟨nofun, Nat.lt_succ_self _⟩
  case initWrbPatable => exact wrbThen_acts ⟨rfl, rfl⟩ ⟨nofun, Nat.lt_succ_self _⟩
  case initStbSftx => exact stbThen_acts ⟨rfl, rfl⟩ ⟨nofun, Nat.lt_succ_self _⟩
  case initStbSfrx => exact stbFinish_acts ⟨rfl, rfl⟩
  case rxWrPktlen => exact wr1Then_acts ⟨rfl, rfl⟩ ⟨nofun, Nat.lt_succ_self _⟩
  case rxStbSrx => exact stbThenWait_acts ⟨rfl, rfl⟩ ⟨nofun, by simp only [remaining]; omega⟩
  case rxWaitRise =>
    exact pollStep_acts rfl (fun _ => .samples (.inl rfl)) ⟨nofun, by simp only [remaining]; omega⟩
      nofun (by simp only [remaining, PollKind.limit]; omega)
  case rxWaitFall =>
    exact pollStep_acts rfl (fun _ => .samples (.inr rfl)) ⟨nofun, by simp only [remaining]; omega⟩
      nofun (by simp only [remaining, PollKind.limit]; omega)
  case rxRdbFifo => exact rxReadFifo_acts nofun rfl ⟨rfl, rfl⟩ ⟨nofun, Nat.lt_succ_self _⟩
  case rxStbSidle => exact stbThenWait_acts ⟨rfl, rfl⟩ ⟨nofun, Nat.lt_succ_self _⟩
  case rxWaitIdle =>
    exact pollStep_acts rfl (fun _ => rd1_acts ⟨rfl, rfl⟩) ⟨nofun, by simp only [remaining]; omega⟩
      nofun (by simp only [remaining, PollKind.limit]; omega)
  case rxStbSfrx => exact stbFinish_acts ⟨rfl, rfl⟩
  case txWrPktlen => exact wr1Then_acts ⟨rfl, rfl⟩ ⟨nofun, Nat.lt_succ_self _⟩
  case txStbSidle => exact stbThenWait_acts ⟨rfl, rfl⟩ ⟨nofun, Nat.lt_succ_self _⟩
  case txWaitIdle =>
    exact pollStep_acts rfl (fun _ => rd1_acts ⟨rfl, rfl⟩) ⟨nofun, by simp only [remaining]; omega⟩
      nofun (by simp only [remaining, PollKind.limit]; omega)
  case txStbSftx => exact stbThen_acts ⟨rfl, rfl⟩ ⟨nofun, Nat.lt_succ_self _⟩
  case txSettle1 => exact delayThen_acts rfl nofun ⟨nofun, Nat.lt_succ_self _⟩
  case txStbStx => exact stbThenWait_acts ⟨rfl, rfl⟩ ⟨nofun, Nat.lt_succ_self _⟩
  case txPollDrain =>
    exact pollStep_acts rfl (fun _ => rd1_acts ⟨rfl, rfl⟩) ⟨nofun, by simp only [remaining]; omega⟩
      nofun (by simp only [remaining, PollKind.limit]; omega)
  case txBackoff => exact delayThen_acts rfl nofun ⟨nofun, Nat.lt_succ_self _⟩
  case txStbSftx2 => exact stbThen_acts ⟨rfl, rfl⟩ ⟨nofun, Nat.lt_succ_self _⟩
  case txStbSfrx => exact stbThen_acts ⟨rfl, rfl⟩ ⟨nofun, Nat.lt_succ_self _⟩
  case txSettle2 => exact delayThen_acts rfl nofun ⟨nofun, Nat.lt_succ_self _⟩
  case txCheck => exact rd1_acts ⟨rfl, rfl⟩ fun v u _ => txVerdict_rest v u

/-! ### Every arm answers -/

theorem Acts.answers {s : State} {o : Out} (ha : Acts s o) (h : SafeState s) :
    ∃ t, o = .next t := by
  cases ha with
  | stops r hnot => exact absurd h hnot
  | waitEnds => exact ⟨_, rfl⟩
  | @exchanges mosi k _ _ hk =>
    have hsat : Sat (fun _ => True) (txn mosi k s) :=
      txn_sat h.csn_released
        (fun m _ => (hk m _ (.afterXfer mosi m s)).mono fun _ _ => trivial) trivial
    exact hsat.exists_next.imp fun _ ht => ht.1
  | @samples k _ hk =>
    have hsat : Sat (fun _ => True) (gdoSample k s) :=
      gdoSample_sat (fun g => (hk g _ (.event s (.gdo g))).mono fun _ _ => trivial) trivial
    exact hsat.exists_next.imp fun _ ht => ht.1
  | delays => exact ⟨_, rfl⟩
  | computes => exact ⟨_, rfl⟩

/-- R122: acceptance answers, whatever the verdict of Check. -/
theorem exec_answers_of_idle {s : State} (hq : s.seq = .idle) (i : Instr) :
    ∃ t, exec i s = .next t := by
  cases hc : check s.cfg i with
  | none => exact ⟨_, exec_of_admitted hq hc⟩
  | some v => exact ⟨_, exec_of_refused hq hc⟩

theorem idleStep_answers {s : State} (hq : s.seq = .idle) : ∃ t, idleStep s = .next t := by
  unfold idleStep
  split
  · exact ⟨_, rfl⟩
  · exact ⟨_, rfl⟩
  · next rest _ =>
    split
    · exact exec_answers_of_idle (s := { s with host := rest }) hq _
    · exact ⟨_, rfl⟩

/-- Settles O49: a reset answers, acceptance answers, and a running command stops only outside the
invariant. -/
theorem stepAlwaysAnswers : Obligations.StepAlwaysAnswers := by
  intro s h
  cases hrst : s.input.rst with
  | true => exact ⟨_, step_of_rst hrst⟩
  | false =>
    by_cases hq : s.seq = .idle
    · obtain ⟨t, ht⟩ := idleStep_answers hq
      exact ⟨_, by rw [step_of_idle hrst hq, ht, advanceOut_next]⟩
    · obtain ⟨t, ht⟩ := (busyStep_acts hq).answers h
      exact ⟨_, by rw [step_of_busy hrst hq, ht, advanceOut_next]⟩

/-! ### What a step of a running command leaves in the trace -/

/-- R125: the events of the one external action inside a command, newest first; `failed` says
whether the action failed (R127). -/
inductive Deed : (failed : Bool) → List Event → Prop where
  | nothing : Deed false []
  | xfer (mosi miso : List Byte) : Deed false [.csHigh, .xfer mosi miso, .csLow]
  | xferFail (mosi : List Byte) : Deed true [.csHigh, .xferFail mosi, .csLow]
  | gdo (level : Bool) : Deed false [.gdo level]
  | gdoFail : Deed true [.gdoFail]
  | delay (ms : Nat) : Deed false [.delay ms]

/-- What a step of a running command leaves: its deed, and then the rest of the step; a failed deed,
possible only with SPI_CAN_FAIL, ends the command at once. -/
inductive Leaves (s : State) : State → Prop where
  | made {es : List Event} {u t : State} (hd : Deed false es) (hu : Quiet s u)
      (htr : u.trace = es ++ s.trace) (h : Rest u t) : Leaves s t
  | failed {es : List Event} {u : State} (hd : Deed true es) (hu : Quiet s u)
      (htr : u.trace = es ++ s.trace) (hc : s.cfg.spiCanFail = true) :
      Leaves s (endedWith .transport 0 u.seq.code u)

theorem txn_leaves {s : State} {mosi : List Byte} {k : List Byte → State → Out}
    (hk : ∀ m u, Quiet s u → Sat (Rest u) (k m u)) : Post (Leaves s) (txn mosi k s) := by
  cases hcs : s.csn with
  | false => simp [txn, hcs]
  | true =>
    cases ha : s.spiAnswer mosi.length with
    | some m =>
      have hu := Quiet.afterXfer mosi m s
      rw [txn_ok hcs ha]
      exact post_of_forall fun t ht => .made (.xfer mosi m) hu rfl ((hk m _ hu).of_next ht)
    | none =>
      rw [txn_fail hcs ha]
      exact .failed (.xferFail mosi) (.afterXferFail mosi s) rfl (spiAnswer_eq_none.mp ha).2

theorem gdoSample_leaves {s : State} {k : Bool → State → Out}
    (hk : ∀ g u, Quiet s u → Sat (Rest u) (k g u)) : Post (Leaves s) (gdoSample k s) := by
  cases ha : s.gdoAnswer with
  | some g =>
    have hu := Quiet.event s (.gdo g)
    rw [gdoSample_ok ha]
    exact post_of_forall fun t ht => .made (.gdo g) hu rfl ((hk g _ hu).of_next ht)
  | none =>
    rw [gdoSample_fail ha]
    exact .failed .gdoFail (.event s .gdoFail) rfl (gdoAnswer_eq_none.mp ha).2

theorem Acts.leaves {s : State} {o : Out} (ha : Acts s o) : Post (Leaves s) o := by
  cases ha with
  | stops => trivial
  | waitEnds info _ _ he => exact .made .nothing (.refl s) rfl (.isOver rfl rfl rfl he)
  | exchanges _ _ hk => exact txn_leaves hk
  | samples _ hk => exact gdoSample_leaves hk
  | delays ms _ _ h => exact .made (.delay ms) (.event s _) rfl h
  | computes _ _ h => exact .made .nothing (.refl s) rfl h

theorem busyStep_leaves {s : State} (hb : s.seq ≠ .idle) : Post (Leaves s) (busyStep s) :=
  (busyStep_acts hb).leaves

/-! ### Bounded termination -/

theorem remaining_pos {s : State} (hb : s.seq ≠ .idle) : 0 < remaining s := by
  cases hq : s.seq
  case idle => exact absurd hq hb
  all_goals simp [remaining, hq]

theorem remaining_of_idle {s : State} (hq : s.seq = .idle) : remaining s = 0 := by
  simp only [remaining, hq]

theorem remaining_of_quiet {s u : State} (h : Quiet s u) : remaining u = remaining s := by
  cases h; rfl

/-- R133: a step of a running command brings its end nearer. -/
theorem Leaves.nearer {s t : State} (hl : Leaves s t) (h : SafeState s) (hf : limitsFinite s.cfg)
    (hb : s.seq ≠ .idle) : remaining t < remaining s := by
  cases hl with
  | @made es u t _ hu _ hr =>
    cases hr with
    | goesOn _ _ _ hn => exact remaining_of_quiet hu ▸ hn (hu.safe h) (hu.cfg_eq ▸ hf)
    | isOver hq => exact remaining_of_idle hq ▸ remaining_pos hb
  | failed => exact remaining_pos hb

theorem input_rst_of_noReset {s : State} (h : noReset s) : s.input.rst = false := by
  cases henv : s.env with
  | nil => simp [State.input, henv]
  | cons i rest => rw [input_of_cons henv]; exact h i (by simp [henv])

/-- A step of a running command with no reset: it answers, nearer to the end, and with the script's
next entry gone (log 5). -/
theorem step_nearer {s : State} (h : SafeState s) (hf : limitsFinite s.cfg)
    (hrst : s.input.rst = false) (hb : s.seq ≠ .idle) :
    ∃ t, step s = .next t ∧ remaining t < remaining s ∧ t.env = s.env.tail := by
  obtain ⟨t, ht⟩ := (busyStep_acts hb).answers h
  have hnear : remaining t < remaining s := ((busyStep_leaves hb).of_next ht).nearer h hf hb
  have henv : t.env = s.env := env_of_does ((busyStep_does hb).of_next ht)
  refine ⟨advance t, by rw [step_of_busy hrst hb, ht, advanceOut_next], hnear, ?_⟩
  rw [advance_env, henv]

/-- Settles O55, by induction on `remaining`: every step lowers it and keeps the premises. -/
theorem commandsEndWhenLimitsAreFinite : Obligations.CommandsEndWhenLimitsAreFinite := by
  intro s h hf hr
  induction hn : remaining s using Nat.strong_induction_on generalizing s with
  | h n ih =>
    by_cases hq : s.seq = .idle
    · exact ⟨0, Nat.zero_le n, s, rfl, hq⟩
    · obtain ⟨t, hstep, hnear, henv⟩ := step_nearer h hf (input_rst_of_noReset hr) hq
      have hcfg : t.cfg = s.cfg := (step_cfg s).of_next hstep
      have hrt : noReset t := fun i hi => hr i (List.mem_of_mem_tail (henv ▸ hi))
      obtain ⟨m, hm, v, hrun, hv⟩ :=
        ih (remaining t) (hn ▸ hnear) t ((step_safe h).of_next hstep) (hcfg ▸ hf) hrt rfl
      exact ⟨m + 1, by omega, v, by rw [runSteps, hstep]; exact hrun, hv⟩

/-! ### The shape of the trace -/

/-- R126: the only bracket an action opens it closes, around one exchange. -/
theorem wellBracketed_append {es tr : List Event} (hes : ActionEvents es)
    (h : wellBracketed tr = true) : wellBracketed (es ++ tr) = true := by
  cases hes with
  | xfer hm hlen => simp [wellBracketed, h, hlen, List.length_pos_iff.mpr hm]
  | xferFail hm => simp [wellBracketed, h, List.length_pos_iff.mpr hm]
  | _ => exact h

/-- Settles O50: a step adds one action and perhaps a completion. -/
theorem transactionsStayBracketed : Obligations.TransactionsStayBracketed := by
  intro s t h hstep
  obtain ⟨es, hes, htr | ⟨e, info, htr⟩⟩ := (step_records s).of_next hstep
  · rw [htr]; exact wellBracketed_append hes h
  · rw [htr]; exact wellBracketed_append hes h

/-- R121, of one state: the commands of its trace alternate, the last one open while BUSY. -/
def InOrder (s : State) : Prop :=
  commandsAlternate s.trace = true ∧ commandOpen s.trace = s.busy

theorem busy_of_ne {s : State} (h : s.seq ≠ .idle) : s.busy = true := decide_eq_true h

theorem busy_of_idle {s : State} (h : s.seq = .idle) : s.busy = false := by simp [State.busy, h]

/-- A deed inside an open command leaves the order and the command open. -/
theorem Deed.inOrder {failed : Bool} {es tr : List Event} (hd : Deed failed es)
    (halt : commandsAlternate tr = true) (hopen : commandOpen tr = true) :
    commandsAlternate (es ++ tr) = true ∧ commandOpen (es ++ tr) = true := by
  cases hd <;> simp [commandsAlternate, commandOpen, halt, hopen]

theorem inOrder_over {t : State} {e : ErrCode} {info : Byte} {tr : List Event}
    (hq : t.seq = .idle) (htr : t.trace = .done e info :: tr)
    (h : commandsAlternate tr = true ∧ commandOpen tr = true) : InOrder t := by
  simp [InOrder, htr, busy_of_idle hq, commandsAlternate, commandOpen, h]

theorem Leaves.inOrder {s t : State} (hl : Leaves s t) (hb : s.seq ≠ .idle) (h : InOrder s) :
    InOrder t := by
  have hopen : commandOpen s.trace = true := h.2.trans (busy_of_ne hb)
  cases hl with
  | @made es u t hd _ htr hr =>
    have hu := hd.inOrder h.1 hopen
    rw [← htr] at hu
    cases hr with
    | goesOn hbt htrt => exact ⟨htrt ▸ hu.1, by rw [htrt, hu.2, busy_of_ne hbt]⟩
    | isOver hq htrt => exact inOrder_over hq htrt hu
  | failed hd _ htr =>
    have hu := hd.inOrder h.1 hopen
    rw [← htr] at hu
    exact inOrder_over rfl rfl hu

theorem latch_trace (i : Instr) (s : State) : (latch i s).trace = s.trace := by cases i <;> rfl

theorem firstState_ne_idle (i : Instr) : firstState i ≠ .idle := by cases i <;> nofun

/-- R122: an acceptance, in IDLE, opens a command or is followed by its completion. -/
theorem inOrder_of_acceptance {s t : State} (ht : Acceptance s t) (hq : s.seq = .idle)
    (h : InOrder s) : InOrder t := by
  have hclosed : commandOpen s.trace = false := h.2.trans (busy_of_idle hq)
  cases ht with
  | nothing => exact h
  | reserved =>
    refine inOrder_over rfl rfl ?_
    simp [commandsAlternate, commandOpen, hclosed, h.1]
  | refused i =>
    refine inOrder_over rfl rfl ?_
    rw [latch_trace]
    simp [accepted, commandsAlternate, commandOpen, hclosed, h.1]
  | admitted i =>
    have htr : ({ latch i (accepted i s) with seq := firstState i } : State).trace =
        .accept i :: s.trace := latch_trace i _
    rw [InOrder, htr, busy_of_ne (firstState_ne_idle i)]
    simp [commandsAlternate, commandOpen, hclosed, h.1]

/-- Settles O51: in IDLE a step may accept, and while a command runs it adds a deed and perhaps the
completion, with which SEQ is IDLE again. -/
theorem commandsNeverOverlap : Obligations.CommandsNeverOverlap := by
  intro s t hrst halt hopen hstep
  have h : InOrder s := ⟨halt, hopen⟩
  have hpost : Post InOrder (step s) := by
    refine step_post (P := InOrder) hrst (fun hq => ?_) (fun hb => ?_) fun _ => id
    · exact (idleStep_does hq).mono fun _ ⟨_, ht⟩ => inOrder_of_acceptance ht hq h
    · exact (busyStep_leaves hb).mono fun _ ht => ht.inOrder hb h
  exact hpost.of_next hstep

/-! ### Transport failures -/

theorem transacts_of_sample {s : State} (hq : SamplesLine s) :
    transacts s = false := by
  rcases hq with hq | hq
  · rw [transacts, hq]
  · rw [transacts, hq]

/-- R127: in a safe state whose poll, if it is in a wait, is made, a failed exchange or sample is
what the step comes to. -/
theorem Acts.of_failure {s : State} {o : Out} (ha : Acts s o) (h : SafeState s)
    (hcan : s.cfg.spiCanFail = true) (hpoll : ∀ k, loopOf s.seq = some k → polls k s = true) :
    (transacts s = true → s.input.spi = .fail →
      o = .next (endedWith .transport 0 s.seq.code (afterXferFail (frameSent s) s))) ∧
    (SamplesLine s → s.input.gdo = .fail →
      o = .next (endedWith .transport 0 s.seq.code (s.event .gdoFail))) := by
  cases ha with
  | stops _ hnot => exact absurd h hnot
  | waitEnds _ hl hp => exact absurd (hpoll _ hl) (by simp [hp])
  | exchanges ht hm =>
    refine ⟨fun _ hfail => ?_, fun hq => absurd (transacts_of_sample hq) (by simp [ht])⟩
    rw [hm]
    exact txn_fail h.csn_released (spiAnswer_eq_none.mpr ⟨hfail, hcan⟩)
  | samples hq =>
    refine ⟨fun ht => absurd (transacts_of_sample hq) (by simp [ht]), fun _ hfail => ?_⟩
    exact gdoSample_fail (gdoAnswer_eq_none.mpr ⟨hfail, hcan⟩)
  | delays _ ht hq => exact ⟨fun ht' => absurd ht (by simp [ht']), fun hq' => absurd hq' hq⟩
  | computes ht hq => exact ⟨fun ht' => absurd ht (by simp [ht']), fun hq' => absurd hq' hq⟩

/-- R125, R127: the events that show a failed action, or a command that it ended. -/
def showsFailure : Event → Bool
  | .xferFail _ => true
  | .gdoFail => true
  | .done e _ => e == .transport
  | _ => false

/-- R127, of one step: it shows no failed action and ends no command with E_TRANSPORT. -/
def Clean (s t : State) : Prop :=
  (t.err = .transport → s.err = .transport) ∧
  ∃ es, t.trace = es ++ s.trace ∧ ∀ e ∈ es, showsFailure e = false

theorem Deed.shows_no_failure {es : List Event} (hd : Deed false es) :
    ∀ e ∈ es, showsFailure e = false := by
  cases hd <;> simp [showsFailure]

/-- R124: a completion with another error, after events that show no failure. -/
theorem clean_over {s t : State} {es : List Event} {info : Byte}
    (htr : t.trace = .done t.err info :: (es ++ s.trace)) (he : t.err ≠ .transport)
    (hes : ∀ e ∈ es, showsFailure e = false) : Clean s t := by
  refine ⟨fun ht => absurd ht he, .done t.err info :: es, htr, fun e hmem => ?_⟩
  rcases List.mem_cons.mp hmem with rfl | hmem
  · simp [showsFailure, he]
  · exact hes e hmem

theorem Leaves.clean {s t : State} (hl : Leaves s t) (hc : s.cfg.spiCanFail = false) :
    Clean s t := by
  cases hl with
  | @made es u t hd hu htr hr =>
    cases hr with
    | goesOn _ htrt herr =>
      have herru : u.err = s.err := by cases hu; rfl
      exact ⟨fun ht => by rwa [herr, herru] at ht, es, htrt.trans htr, hd.shows_no_failure⟩
    | isOver _ htrt herr he =>
      subst herr
      exact clean_over (htr ▸ htrt) he hd.shows_no_failure
  | failed _ _ _ hcan => simp [hc] at hcan

/-- R123: the errors of Check. -/
theorem check_errors {cfg : Config} {i : Instr} {e : ErrCode} {info : Byte}
    (hc : check cfg i = some (e, info)) : e = .range ∨ e = .oversize ∨ e = .align := by
  cases i with
  | wrb => simp only [check, checkWriteLength] at hc; split at hc <;> cases hc; simp
  | rdb => simp only [check, checkBurstRead] at hc; split at hc <;> cases hc; simp
  | rxpkt => simp only [check, checkBurstRead] at hc; split at hc <;> cases hc; simp
  | txpkt => simp only [check, checkPayload] at hc; split_ifs at hc <;> cases hc <;> simp
  | _ => cases hc

theorem clean_of_acceptance {s t : State} (ht : Acceptance s t) : Clean s t := by
  cases ht with
  | nothing => exact ⟨id, [], rfl, by simp⟩
  | @reserved op =>
    exact clean_over (es := [.acceptReserved op]) rfl (by simp [acceptReserved])
      (by simp [showsFailure])
  | @refused i e info hc =>
    have he : e ≠ .transport := by rcases check_errors hc with rfl | rfl | rfl <;> nofun
    refine clean_over (es := [.accept i]) (info := info) ?_ he (by simp [showsFailure])
    exact congrArg (Event.done e info :: ·) (latch_trace i (accepted i s))
  | admitted i =>
    refine ⟨fun ht => ?_, [.accept i], latch_trace i (accepted i s), by simp [showsFailure]⟩
    simp [accepted] at ht

/-- R127: SPI_CAN_FAIL false rules failure out of every step, a reset among them. -/
theorem step_clean {s : State} (hc : s.cfg.spiCanFail = false) : Post (Clean s) (step s) := by
  cases hrst : s.input.rst with
  | true =>
    rw [step_of_rst hrst]
    exact ⟨nofun, [], rfl, by simp⟩
  | false =>
    refine step_post (P := Clean s) hrst (fun hq => ?_) (fun hb => ?_) fun _ => id
    · exact (idleStep_does hq).mono fun _ ⟨rest, ht⟩ =>
        clean_of_acceptance (s := { s with host := rest }) ht
    · exact (busyStep_leaves hb).mono fun _ ht => ht.clean hc

/-- Settles O28: the step of a running command is its one transaction or sample, and without
SPI_CAN_FAIL no step shows a failure; the events a step adds are determined by the two traces. -/
theorem transportFailureEndsCommand : Obligations.TransportFailureEndsCommand := by
  refine ⟨fun i s h hrun hcan hpoll => ?_, fun s t hc hstep => ?_⟩
  · have ha := busyStep_acts (running_not_idle hrun)
    rw [busyStep_of_running hrun] at ha
    exact ha.of_failure h hcan hpoll
  · obtain ⟨herr, es, htr, hes⟩ := (step_clean hc).of_next hstep
    refine ⟨herr, fun es' htr' => ?_⟩
    obtain rfl : es' = es := List.append_cancel_right (htr'.symm.trans htr)
    refine ⟨fun hmem => ?_, fun mosi hmem => ?_, fun info hmem => ?_⟩
    · exact absurd (hes _ hmem) (by decide)
    · exact absurd (hes _ hmem) (by simp [showsFailure])
    · exact absurd (hes _ hmem) (by simp [showsFailure])

end Sys2Proof.Sequencer
end

section
/-! SUPPORT and proofs for 41_spi_transactions.md: what each transaction does when the bus answers
(R151 to R159), and the primitives in PRIM (R160). -/

namespace Sys2Proof.Transactions

open Sys2Proof.Machine Sys2Proof.Laws Sys2Proof.Safety

/-! ### The partial write of a buffer -/

/-- Settles O21, entry by entry on either side of the new list's length. -/
theorem overwriteReplacesExactlyTheFirst : Obligations.OverwriteReplacesExactlyTheFirst := by
  intro α n old new k hk
  exact ⟨getElem_overwrite_lt old new k hk, getElem_overwrite_ge old new k hk⟩

/-! ### The frames -/

/-- R92, R151: the write mode bits are all zero. -/
theorem wr1Mosi_eq (addr value : Byte) : wr1Mosi addr value = [addr, value] := by
  simp [wr1Mosi]

/-- R157: the interval `[0, LEN]` is closed. -/
theorem length_rdbMosi (addr len : Byte) : (rdbMosi addr len).length = len.toNat + 1 := by
  rw [rdbMosi, List.length_map, List.length_range]

theorem getElem?_rdbMosi (addr len : Byte) {i : Nat} (hi : i ≤ len.toNat) :
    (rdbMosi addr len)[i]? = some (burstByte (burstSum addr i) ||| modeReadBurst) := by
  rw [rdbMosi, List.getElem?_map, List.getElem?_range (by omega)]
  rfl

theorem toNat_burstByte (a : Nat) : (burstByte a).toNat = a % 256 := BitVec.toNat_ofNat ..

/-- Settles O27: each sum up to the last is at most the last one, so that none wraps if that does
not. -/
theorem burstReadAddressBytes : Obligations.BurstReadAddressBytes := by
  intro a n
  refine ⟨length_rdbMosi a n, fun i hi => ⟨_, getElem?_rdbMosi a n hi, toNat_burstByte _, ?_⟩⟩
  intro hfits
  have hsum : burstSum a i ≤ 0xFF := by
    rw [burstSum]; omega
  rw [toNat_burstByte, Nat.mod_eq_of_lt (by omega), burstSum]

/-! ### The transactions, when the bus answers -/

section Ops

variable {s : State} {addr : Byte} {m : List Byte}

theorem wr1_ok {value : Byte} {k : State → Out} (hc : s.csn = true)
    (ha : s.spiAnswer 2 = some m) :
    wr1 addr value k s = k (afterXfer (wr1Mosi addr value) m s) :=
  txn_ok hc ha

theorem wrb_ok {bytes : List Byte} {k : State → Out} (hc : s.csn = true)
    (ha : s.spiAnswer (bytes.length + 1) = some m) :
    wrb addr bytes k s = k (afterXfer (wrbMosi addr bytes) m s) :=
  txn_ok hc ha

theorem stb_ok {k : Byte → Byte → State → Out} (hc : s.csn = true)
    (ha : s.spiAnswer 2 = some m) :
    stb addr k s = k (m.getD 0 0) (m.getD 1 0) (afterXfer (stbMosi addr) m s) :=
  txn_ok hc ha

/-- R158: a burst read that is not refused is made, and fills RBUF and RLEN. -/
theorem rdb_ok {len : Byte} {k : List Byte → State → Out} (hc : s.csn = true)
    (hfits : ¬ (s.cfg.rdbOverflow = .refuse ∧ 0xFF < addr.toNat + 8 * len.toNat))
    (ha : s.spiAnswer (len.toNat + 1) = some m) :
    rdb addr len k s =
      k m { afterXfer (rdbMosi addr len) m s with
        rbuf := overwrite s.rbuf m, rlen := BitVec.ofNat 9 (len.toNat + 1) } := by
  rw [← burstOverflows_iff] at hfits
  rw [← length_rdbMosi addr len] at ha
  rw [rdb, if_neg hfits, txn_ok hc ha]
  rfl

end Ops

/-! ### The primitives in PRIM -/

section Prim

variable {s : State}

theorem exec_wr1_of_prim (a v : Byte) (hq : s.seq = .prim) (hop : s.op = opWr1) :
    exec (.wr1 a v) s = wr1 s.addr s.val finishCommand s := by
  simp only [exec, execWr1, hq, if_pos hop]

theorem exec_rd1_of_prim (a : Byte) (hq : s.seq = .prim) (hop : s.op = opRd1) :
    exec (.rd1 a) s = rd1 s.addr (fun v t => finishCommand { t with rdata := v }) s := by
  simp only [exec, execRd1, hq, if_pos hop]

/-- R155: the payload is `WBUF[0..WLEN-1]`, which lies in WBUF. -/
theorem exec_wrb_of_prim (a n : Byte) (l : List Byte) (hq : s.seq = .prim) (hop : s.op = opWrb)
    (hn : s.wlen.toNat ≤ 64) :
    exec (.wrb a n l) s = wrb s.addr s.writePayload finishCommand s := by
  simp only [exec, execWrb, hq, if_pos hop, if_pos hn]

theorem exec_rdb_of_prim (a n : Byte) (hq : s.seq = .prim) (hop : s.op = opRdb) :
    exec (.rdb a n) s = rdb s.addr s.len (fun _ t => finishCommand t) s := by
  simp only [exec, execRdb, hq, if_pos hop]

theorem exec_stb_of_prim (a : Byte) (hq : s.seq = .prim) (hop : s.op = opStb) :
    exec (.stb a) s =
      stb s.addr (fun b c t => finishCommand { t with stat0 := b, stat1 := c }) s := by
  simp only [exec, execStb, hq, if_pos hop]

/-- WBUF holds the whole payload. -/
theorem length_writePayload (hn : s.wlen.toNat ≤ 64) :
    s.writePayload.length = s.wlen.toNat := by
  rw [State.writePayload, List.length_take, Vector.length_toList, Nat.min_eq_left hn]

end Prim

/-- Settles O22: the bus answers the one write, and the command ends. -/
theorem writeSingleTransaction : Obligations.WriteSingleTransaction := by
  intro s a v m hq hop hc haddr hval hans
  rw [exec_wr1_of_prim a v hq hop, wr1_ok hc hans, wr1Mosi_eq, finishCommand_eq, haddr, hval]

/-- Settles O23: the second of the two received bytes is kept. -/
theorem readSingleTransaction : Obligations.ReadSingleTransaction := by
  intro s a m0 m1 hq hop hc haddr hans
  rw [exec_rd1_of_prim a hq hop, rd1_ok hc hans, finishCommand_eq, haddr]
  rfl

/-- Settles O24: the frame is one byte longer than the payload, whose length is WLEN. -/
theorem writeBurstTransaction : Obligations.WriteBurstTransaction := by
  intro s a n l m hq hop hc haddr hlen hn hbuf hans
  subst hlen
  have hpayload : s.writePayload = l := hbuf
  rw [← length_writePayload hn] at hans
  rw [exec_wrb_of_prim a _ l hq hop hn, wrb_ok hc hans, finishCommand_eq, haddr, hpayload]
  rfl

/-- Settles O25: no sum leaves the byte range under refuse, so the read is made. -/
theorem readBurstTransaction : Obligations.ReadBurstTransaction := by
  intro s a n m hq hop hc haddr hlen hfits hans
  rw [exec_rdb_of_prim a n hq hop, haddr, hlen, rdb_ok hc hfits hans, finishCommand_eq]
  rfl

/-- Settles O26: both received bytes are kept. -/
theorem strobeTransaction : Obligations.StrobeTransaction := by
  intro s a m0 m1 hq hop hc haddr hans
  rw [exec_stb_of_prim a hq hop, stb_ok hc hans, finishCommand_eq, haddr]
  rfl

end Sys2Proof.Transactions
end

section
/-! SUPPORT and proofs for 42_config_init.md: the host helpers (R181 to R183), the rows of INIT
(R185) and the pairs of a profile (R189), and both sequences as whole runs. `Sent` says what a run
has left in the trace; `Sent.exchange` carries it over one transaction. -/

namespace Sys2Proof.ConfigInit

open Sys2Proof.Machine Sys2Proof.Laws Sys2Proof.Safety
open Sys2Proof.Registers Sys2Proof.Sequencer Sys2Proof.Transactions

/-! ### Range24 -/

theorem range24_of_fits (mode : FreqOverflow) {w : Int} (h0 : 0 ≤ w) (hmax : w ≤ 0xFFFFFF) :
    range24 mode w = .ok (BitVec.ofInt 24 w) := if_pos ⟨h0, hmax⟩

theorem toNat_ofInt_24 (w : Int) : ((BitVec.ofInt 24 w).toNat : Int) = w % 16777216 := by
  rw [BitVec.toNat_ofInt]
  exact Int.toNat_of_nonneg (Int.emod_nonneg w (by decide))

theorem toNat_ofInt_24_of_fits {w : Int} (h0 : 0 ≤ w) (hmax : w ≤ 0xFFFFFF) :
    ((BitVec.ofInt 24 w).toNat : Int) = w := by
  rw [toNat_ofInt_24]
  exact Int.emod_eq_of_lt h0 (by omega)

/-- Settles O45: inside the range every mode returns the word, outside it each mode has its own
branch. -/
theorem frequencyWordRange : Obligations.FrequencyWordRange := by
  intro mode w
  refine ⟨fun h0 hmax => ?_, fun hout => ?_⟩
  · exact ⟨_, range24_of_fits mode h0 hmax, toNat_ofInt_24_of_fits h0 hmax⟩
  · have hnot : ¬ (0 ≤ w ∧ w ≤ 0xFFFFFF) := by omega
    refine ⟨if_neg hnot, ⟨_, if_neg hnot, toNat_ofInt_24 w⟩, fun hneg => ?_, fun hbig => ?_⟩
    · rw [range24, if_neg hnot]
      simp only [if_pos hneg]
    · have hpos : ¬ w < 0 := by omega
      rw [range24, if_neg hnot]
      simp only [if_neg hpos]

/-! ### FreqWord -/

/-- R181: `w` is an integer nearest to `num / den`, and the even one where two are equally near. -/
def IsNearestEven (num den w : Nat) : Prop :=
  2 * w * den ≤ 2 * num + den ∧ 2 * num ≤ 2 * w * den + den ∧
    (2 * w * den = 2 * num + den ∨ 2 * num = 2 * w * den + den → w % 2 = 0)

theorem two_mul_eq_quotient_add (num den : Nat) :
    2 * num = 2 * (num / den) * den + 2 * (num % den) := by
  have h := Nat.div_add_mod' num den
  rw [Nat.mul_assoc]
  omega

/-- The remainder is at most half the divisor: the quotient is nearest. -/
theorem isNearestEven_div {num den : Nat} (hle : 2 * (num % den) ≤ den)
    (htie : 2 * (num % den) = den → num / den % 2 = 0) : IsNearestEven num den (num / den) := by
  have h := two_mul_eq_quotient_add num den
  exact ⟨by omega, by omega, fun ht => htie (by omega)⟩

/-- The remainder is at least half the divisor: the quotient's successor is nearest. -/
theorem isNearestEven_div_add_one {num den : Nat} (hd : 0 < den) (hge : den ≤ 2 * (num % den))
    (htie : 2 * (num % den) = den → (num / den + 1) % 2 = 0) :
    IsNearestEven num den (num / den + 1) := by
  have h := two_mul_eq_quotient_add num den
  have hlt := Nat.mod_lt num hd
  have hsucc : 2 * (num / den + 1) * den = 2 * (num / den) * den + 2 * den := by ring
  rw [IsNearestEven, hsucc]
  exact ⟨by omega, by omega, fun ht => htie (by omega)⟩

theorem isNearestEven_roundHalfEven (num : Nat) {den : Nat} (hd : 0 < den) :
    IsNearestEven num den (roundHalfEven num den) := by
  unfold roundHalfEven
  split_ifs with hlow hhigh heven
  · exact isNearestEven_div (by omega) (by omega)
  · exact isNearestEven_div_add_one hd (by omega) (by omega)
  · exact isNearestEven_div (by omega) fun _ => heven
  · exact isNearestEven_div_add_one hd (by omega) (by omega)

/-- Less than half a unit above `top`, the rounded word is at most `top`. -/
theorem IsNearestEven.le {num den w top : Nat} (h : IsNearestEven num den w)
    (hlt : 2 * num < (2 * top + 1) * den) : w ≤ top := by
  obtain ⟨hle, -, -⟩ := h
  have hsucc : (2 * top + 2) * den = (2 * top + 1) * den + den := Nat.succ_mul ..
  have hmul : 2 * w * den < (2 * top + 2) * den := by omega
  have hdouble : 2 * w < 2 * top + 2 := Nat.lt_of_mul_lt_mul_right hmul
  omega

theorem exists_range24_of_le (mode : FreqOverflow) {n : Nat} (h : n ≤ 0xFFFFFF) :
    ∃ w, range24 mode ((n : Int) + 0) = .ok w ∧ w.toNat = n := by
  have h0 : (0 : Int) ≤ (n : Int) + 0 := by omega
  have hmax : (n : Int) + 0 ≤ 0xFFFFFF := by omega
  have hval := toNat_ofInt_24_of_fits h0 hmax
  exact ⟨_, range24_of_fits mode h0 hmax, by omega⟩

/-- Settles O44: the rounded quotient is nearest, hence within half a unit of the quotient, and in
range when the quotient is less than half a unit above the greatest word. -/
theorem frequencyWordWithinOneUnit : Obligations.FrequencyWordWithinOneUnit := by
  intro cfg hzNum hzDen hx hz num den
  have hnear : IsNearestEven num den (roundHalfEven num den) :=
    isNearestEven_roundHalfEven num (Nat.mul_pos hz hx)
  have hmax (hlt : 2 * num < (2 * 0xFFFFFF + 1) * den) := hnear.le hlt
  obtain ⟨hle, hge, htie⟩ := hnear
  refine ⟨⟨_, hle, hge, htie, fun _ => rfl⟩, fun hlt => ?_⟩
  obtain ⟨w, hw, hval⟩ := exists_range24_of_le cfg.freqOverflow (hmax hlt)
  refine ⟨w, hw, ?_⟩
  rw [hval, Nat.mul_assoc, Nat.mul_comm cfg.xtalHz hzDen]
  rw [Nat.mul_assoc] at hle hge
  show _ * den ≤ num + den ∧ num ≤ _ * den + den
  omega

/-! ### ParseSync4 -/

/-- R183: the hexadecimal digits with their values. -/
def hexTable : List (Char × Nat) :=
  [('0', 0), ('1', 1), ('2', 2), ('3', 3), ('4', 4), ('5', 5), ('6', 6), ('7', 7), ('8', 8),
   ('9', 9), ('a', 10), ('b', 11), ('c', 12), ('d', 13), ('e', 14), ('f', 15),
   ('A', 10), ('B', 11), ('C', 12), ('D', 13), ('E', 14), ('F', 15)]

theorem hexDigit_of_mem_hexTable : ∀ p ∈ hexTable, hexDigit p.1 = some p.2 := by decide

/-- Every digit is an ASCII character. -/
theorem toNat_lt_of_hexDigit {c : Char} {d : Nat} (h : hexDigit c = some d) : c.toNat < 128 := by
  simp only [hexDigit] at h
  split_ifs at h <;> omega

theorem mem_hexTable_of_ascii : ∀ n < 128, ∀ d ∈ hexDigit (Char.ofNat n),
    (Char.ofNat n, d) ∈ hexTable := by decide

theorem hexDigit_eq_some_iff {c : Char} {d : Nat} : hexDigit c = some d ↔ (c, d) ∈ hexTable := by
  refine ⟨fun h => ?_, hexDigit_of_mem_hexTable (c, d)⟩
  have hmem := mem_hexTable_of_ascii c.toNat (toNat_lt_of_hexDigit h) d
  rw [Char.ofNat_toNat] at hmem
  exact hmem h

theorem hexDigit_lt {c : Char} {d : Nat} (h : hexDigit c = some d) : d < 16 := by
  have hall : ∀ p ∈ hexTable, p.2 < 16 := by decide
  exact hall (c, d) (hexDigit_eq_some_iff.mp h)

theorem parseSync4_of_length_ne {l : List Char} (h : l.length ≠ 4) :
    parseSync4 l = .error { err := .syncFmt, info := 0 } := by
  unfold parseSync4
  split
  · exact absurd rfl h
  · rfl

theorem parseSync4_of_digits {c0 c1 c2 c3 : Char} {d0 d1 d2 d3 : Nat} (h0 : hexDigit c0 = some d0)
    (h1 : hexDigit c1 = some d1) (h2 : hexDigit c2 = some d2) (h3 : hexDigit c3 = some d3) :
    parseSync4 [c0, c1, c2, c3] =
      .ok (BitVec.ofNat 16 (d0 * 4096 + d1 * 256 + d2 * 16 + d3)) := by
  simp only [parseSync4, h0, h1, h2, h3]

/-- Four characters parse only if each of them is a digit. -/
theorem parseSync4_of_not_digit {l : List Char} (h : ∃ c ∈ l, hexDigit c = none) :
    parseSync4 l = .error { err := .syncFmt, info := 0 } := by
  unfold parseSync4
  split
  · next c0 c1 c2 c3 =>
    split
    · next h0 h1 h2 h3 => simp [h0, h1, h2, h3] at h
    · rfl
  · rfl

/-- Settles O46: the digits are those of the table, and four of them, each below 16, fill the two
bytes without a carry. -/
theorem syncWordParse : Obligations.SyncWordParse := by
  refine ⟨fun _ _ => hexDigit_eq_some_iff, fun _ => parseSync4_of_length_ne,
    fun _ => parseSync4_of_not_digit, fun c0 c1 c2 c3 d0 d1 d2 d3 h0 h1 h2 h3 => ?_⟩
  have hd0 := hexDigit_lt h0
  have hd1 := hexDigit_lt h1
  have hd2 := hexDigit_lt h2
  have hd3 := hexDigit_lt h3
  refine ⟨_, parseSync4_of_digits h0 h1 h2 h3, ?_⟩
  simp only [BitVec.extractLsb'_toNat, BitVec.toNat_ofNat, Nat.shiftRight_eq_div_pow]
  omega

/-! ### The transactions that only move on, when the bus answers -/

section Ops

variable {s : State} {addr : Byte} {q : FineState} {m : List Byte}

theorem wr1Then_ok {value : Byte} (hc : s.csn = true) (ha : s.spiAnswer 2 = some m) :
    wr1Then addr value q s = .next { afterXfer [addr, value] m s with seq := q } := by
  rw [wr1Then, wr1_ok hc ha, wr1Mosi_eq, goto_eq]

theorem wrbThen_ok {bytes : List Byte} (hc : s.csn = true)
    (ha : s.spiAnswer (bytes.length + 1) = some m) :
    wrbThen addr bytes q s = .next { afterXfer (wrbMosi addr bytes) m s with seq := q } := by
  rw [wrbThen, wrb_ok hc ha, goto_eq]

theorem stbThen_ok (hc : s.csn = true) (ha : s.spiAnswer 2 = some m) :
    stbThen addr q s = .next { afterXfer [addr, 0x00] m s with seq := q } := by
  rw [stbThen, stb_ok hc ha, goto_eq]; rfl

theorem stbFinish_ok (hc : s.csn = true) (ha : s.spiAnswer 2 = some m) :
    stb addr (fun _ _ t => finishCommand t) s = .next (ended (afterXfer [addr, 0x00] m s)) := by
  rw [stb_ok hc ha, finishCommand_eq]; rfl

end Ops

/-! ### The rows of INIT -/

/-- R185, the first eight rows: the fine state, its transaction and the next state. The ninth, in
INIT_STB_SFRX, ends the command. -/
inductive InitRow (c : Config) (f : BitVec 24) (y : BitVec 16) :
    FineState → List Byte → FineState → Prop where
  | stbSres : InitRow c f y .initStbSres [c.map.sres, 0x00] .initWrFreq2
  | wrFreq2 : InitRow c f y .initWrFreq2 [c.map.freq2, f.extractLsb' 16 8] .initWrFreq1
  | wrFreq1 : InitRow c f y .initWrFreq1 [c.map.freq1, f.extractLsb' 8 8] .initWrFreq0
  | wrFreq0 : InitRow c f y .initWrFreq0 [c.map.freq0, f.extractLsb' 0 8] .initWrSync1
  | wrSync1 : InitRow c f y .initWrSync1 [c.map.sync1, y.extractLsb' 8 8] .initWrSync0
  | wrSync0 : InitRow c f y .initWrSync0 [c.map.sync0, y.extractLsb' 0 8] .initWrbPatable
  | wrbPatable :
      InitRow c f y .initWrbPatable ((c.map.patable ||| 0x40) :: c.patable.toList) .initStbSftx
  | stbSftx : InitRow c f y .initStbSftx [c.map.sftx, 0x00] .initStbSfrx

theorem InitRow.running {c : Config} {f : BitVec 24} {y : BitVec 16} {q q' : FineState}
    {mosi : List Byte} {s : State} (h : InitRow c f y q mosi q') (hq : s.seq = q) :
    s.running = some (.init s.freqw s.sync16) := by
  cases h <;> simp only [State.running, hq]

/-- A row's step, whatever the operands presented: those latched count (log 10). -/
theorem InitRow.exec_eq {f : BitVec 24} {y : BitVec 16} {q q' : FineState} {mosi m : List Byte}
    {s : State} (h : InitRow s.cfg s.freqw s.sync16 q mosi q') (hq : s.seq = q)
    (hc : s.csn = true) (ha : s.spiAnswer mosi.length = some m) :
    exec (.init f y) s = .next { afterXfer mosi m s with seq := q' } := by
  cases h <;> simp only [exec, execInit, hq]
  case stbSres => exact stbThen_ok hc ha
  case wrFreq2 => exact wr1Then_ok hc ha
  case wrFreq1 => exact wr1Then_ok hc ha
  case wrFreq0 => exact wr1Then_ok hc ha
  case wrSync1 => exact wr1Then_ok hc ha
  case wrSync0 => exact wr1Then_ok hc ha
  case wrbPatable => exact wrbThen_ok hc ha
  case stbSftx => exact stbThen_ok hc ha

/-- R185, the ninth row. -/
theorem exec_initStbSfrx {f : BitVec 24} {y : BitVec 16} {m : List Byte} {s : State}
    (hq : s.seq = .initStbSfrx) (hc : s.csn = true) (ha : s.spiAnswer 2 = some m) :
    exec (.init f y) s = .next (ended (afterXfer [s.cfg.map.sfrx, 0x00] m s)) := by
  simp only [exec, execInit, hq]
  exact stbFinish_ok hc ha

/-- Settles O29, row by row; the burst of row 7 is the 8 bytes of PATABLE_INIT behind its
address. -/
theorem initTransactions : Obligations.InitTransactions := by
  rintro _ _ s m hc rfl rfl
  have hrow {q q' : FineState} {mosi : List Byte}
      (h : InitRow s.cfg s.freqw s.sync16 q mosi q') (ha : s.spiAnswer mosi.length = some m)
      (hq : s.seq = q) := h.exec_eq (f := s.freqw) (y := s.sync16) hq hc ha
  refine ⟨fun ha => ⟨hrow .stbSres ha, hrow .wrFreq2 ha, hrow .wrFreq1 ha, hrow .wrFreq0 ha,
    hrow .wrSync1 ha, hrow .wrSync0 ha, hrow .stbSftx ha, fun hq => exec_initStbSfrx hq hc ha⟩,
    fun ha => hrow .wrbPatable ?_⟩
  rwa [List.length_cons, Vector.length_toList]

/-! ### The pairs of a profile -/

/-- R187, R190: the command that applies a profile, the value of CFG_SEL and the pairs. -/
inductive Applies (c : Config) : Instr → ProfileSel → Profile → Prop where
  | rx : Applies c .cfgrx .rx c.profileRx
  | tx : Applies c .cfgtx .tx c.profileTx

theorem Applies.profile_eq {s : State} {i : Instr} {p : Profile}
    (h : Applies s.cfg i s.cfgSel p) : s.profile = p := by
  unfold State.profile
  generalize s.cfgSel = sel at h
  cases h <;> rfl

/-- In CFG_WRITE the command is the one running, so that its step is `cfgWriteStep`. -/
theorem Applies.exec_eq {s : State} {i : Instr} {p : Profile} (h : Applies s.cfg i s.cfgSel p)
    (hq : s.seq = .cfgWrite) : exec i s = cfgWriteStep s := by
  have hrun : s.running = some i := by
    simp only [State.running, hq]
    generalize s.cfgSel = sel at h
    cases h <;> rfl
  rw [← busyStep_of_running hrun, busyStep_cfgWrite hq]

theorem cfgWriteStep_of_pair {s : State} {a v : Byte} {m : List Byte} (hc : s.csn = true)
    (hp : s.profile[s.cfgIdx.toNat]? = some (a, v)) (ha : s.spiAnswer 2 = some m) :
    cfgWriteStep s = .next { afterXfer [a, v] m s with cfgIdx := s.cfgIdx + 1 } := by
  simp only [cfgWriteStep, hp]
  rw [wr1_ok hc ha, wr1Mosi_eq]
  rfl

theorem cfgWriteStep_of_end {s : State} (h : s.cfgIdx.toNat = s.profile.length) :
    cfgWriteStep s = .next (ended s) := by
  have hnone : s.profile[s.cfgIdx.toNat]? = none := List.getElem?_eq_none_iff.mpr h.ge
  simp only [cfgWriteStep, hnone]
  rw [if_pos h, finishCommand_eq]

/-- Settles O30, by the two answers of `cfgWriteStep`. -/
theorem profileApplication : Obligations.ProfileApplication := by
  intro s m i p hq hc hi
  have happ : Applies s.cfg i s.cfgSel p := by
    rcases hi with ⟨rfl, hsel, rfl⟩ | ⟨rfl, hsel, rfl⟩
    · rw [hsel]; exact .rx
    · rw [hsel]; exact .tx
  rw [happ.exec_eq hq, ← happ.profile_eq]
  exact ⟨fun a v => cfgWriteStep_of_pair hc, cfgWriteStep_of_end⟩

/-! ### Good inputs -/

theorem goodInputs_input {n : Nat} {s : State} (h : goodInputs (n + 1) s) :
    s.input.rst = false ∧ (s.cfg.spiCanFail = true → s.input.spi ≠ .fail) := by
  obtain ⟨hlen, hgood⟩ := h
  cases henv : s.env with
  | nil => simp [henv] at hlen
  | cons i rest =>
    rw [input_of_cons henv]
    exact hgood i (by simp [henv])

/-- R127: under a good input the bus answers. -/
theorem exists_spiAnswer {n : Nat} {s : State} (h : goodInputs (n + 1) s) (k : Nat) :
    ∃ m, s.spiAnswer k = some m := by
  refine Option.ne_none_iff_exists'.mp fun hnone => ?_
  obtain ⟨hfail, hcan⟩ := spiAnswer_eq_none.mp hnone
  exact (goodInputs_input h).2 hcan hfail

/-- Log 5: a step uses up one input. -/
theorem goodInputs_tail {n : Nat} {s t : State} (h : goodInputs (n + 1) s)
    (henv : t.env = s.env.tail) (hcfg : t.cfg = s.cfg) : goodInputs n t := by
  obtain ⟨hlen, hgood⟩ := h
  rw [goodInputs, henv, hcfg]
  refine ⟨by rw [List.length_tail]; omega, fun i hi => hgood i ?_⟩
  cases hs : s.env with
  | nil => simp [hs] at hi
  | cons j rest =>
    rw [hs, List.tail_cons] at hi
    exact List.mem_cons_of_mem j hi

/-! ### What a run of transactions leaves -/

/-- A claim about a run, from its first step and the rest. -/
theorem runSteps_sat {P Q : State → Prop} {n : Nat} {s : State} (h : Sat P (step s))
    (hn : ∀ t, P t → Sat Q (runSteps n t)) : Sat Q (runSteps (n + 1) s) := by
  obtain ⟨t, ht, hp⟩ := h.exists_next
  rw [runSteps, ht]
  exact hn t hp

/-- Between `s` and `t` a run has sent the frames `fs`, newest first, with no sample and no delay,
and has left the port and the parameters; CSN is released. -/
structure Sent (s : State) (fs : List (List Byte)) (t : State) : Prop where
  csn : t.csn = true
  cfg : t.cfg = s.cfg
  host : t.host = s.host
  frames : sentFrames t.trace = fs ++ sentFrames s.trace
  samples : sampleCount t.trace = sampleCount s.trace
  delays : delayTotal t.trace = delayTotal s.trace

section Run

variable {s t u : State} {fs : List (List Byte)}

/-- R126: one more transaction. -/
theorem Sent.exchange {mosi : List Byte} (h : Sent s fs t) (m : List Byte) (hcsn : u.csn = true)
    (hcfg : u.cfg = t.cfg) (hhost : u.host = t.host)
    (htrace : u.trace = (afterXfer mosi m t).trace) : Sent s (mosi :: fs) u where
  csn := hcsn
  cfg := hcfg.trans h.cfg
  host := hhost.trans h.host
  frames := by rw [htrace, List.cons_append, ← h.frames]; rfl
  samples := by rw [htrace, ← h.samples]; simp [sampleCount, afterXfer, Event.samples]
  delays := by rw [htrace, ← h.delays]; simp [delayTotal, afterXfer, Event.delayMs]

/-- A command that has run to its normal end, with `Sent` of its whole run. -/
structure Finished (s : State) (fs : List (List Byte)) (t : State) : Prop extends Sent s fs t where
  seq : t.seq = .idle
  done : t.done = true
  err : t.err = .none

/-- R124: the normal end sends nothing. -/
theorem Sent.finished (h : Sent s fs t) : Finished s fs (advance (ended t)) where
  csn := h.csn
  cfg := h.cfg
  host := h.host
  frames := h.frames
  samples := by rw [← h.samples]; simp [sampleCount, ended, Event.samples]
  delays := by rw [← h.delays]; simp [delayTotal, ended, Event.delayMs]
  seq := rfl
  done := rfl
  err := rfl

end Run

/-! ### The accepting step -/

@[simp] theorem latch_host (i : Instr) (s : State) : (latch i s).host = s.host := by cases i <;> rfl
@[simp] theorem latch_env (i : Instr) (s : State) : (latch i s).env = s.env := by cases i <;> rfl
@[simp] theorem latch_trace (i : Instr) (s : State) : (latch i s).trace = s.trace := by
  cases i <;> rfl

/-- The state after the step that accepts `i` in `s`, whose port no longer holds the record. -/
def entered (i : Instr) (s : State) : State :=
  advance { latch i (accepted i s) with seq := firstState i }

/-- R121, R122: the presented command, with a good verdict. -/
theorem step_of_admitted {s : State} {c : Record} {rest : List (Option Record)} {i : Instr}
    (hrst : s.input.rst = false) (hq : s.seq = .idle) (hhost : s.host = some c :: rest)
    (hdec : decode c = .ok i) (hcheck : check s.cfg i = none) :
    step s = .next (entered i { s with host := rest }) := by
  rw [stepAcceptsThePresented s c rest i hrst hq hhost hdec,
    exec_of_admitted (s := { s with host := rest }) hq hcheck]
  rfl

/-- Acceptance sends nothing. -/
theorem sent_entered (i : Instr) {s : State} (hc : s.csn = true) : Sent s [] (entered i s) where
  csn := (latch_csn i _).trans hc
  cfg := latch_cfg i _
  host := latch_host i _
  frames := by simp [entered, accepted, sentFrames]
  samples := by simp [entered, accepted, sampleCount, Event.samples]
  delays := by simp [entered, accepted, delayTotal, Event.delayMs]

theorem goodInputs_entered (i : Instr) {n : Nat} {s : State} (h : goodInputs (n + 1) s) :
    goodInputs n (entered i s) :=
  goodInputs_tail h (congrArg List.tail (latch_env i _)) (latch_cfg i _)

/-! ### The run of INIT -/

/-- INIT runs in `q` with the operands `f` and `y`, having sent `fs` since `s`, and `n` good inputs
are ahead. -/
structure InitAt (s : State) (f : BitVec 24) (y : BitVec 16) (n : Nat) (q : FineState)
    (fs : List (List Byte)) (t : State) : Prop extends Sent s fs t where
  inputs : goodInputs n t
  seq : t.seq = q
  freqw : t.freqw = f
  sync16 : t.sync16 = y

section InitRun

variable {s t : State} {f : BitVec 24} {y : BitVec 16} {n : Nat} {q q' : FineState}
  {fs : List (List Byte)} {mosi : List Byte}

theorem initAt_entered (hc : s.csn = true) (h : goodInputs (n + 1) s) :
    InitAt s f y n .initStbSres [] (entered (.init f y) s) :=
  ⟨sent_entered _ hc, goodInputs_entered _ h, rfl, rfl, rfl⟩

/-- R185: the step of a row. -/
theorem InitAt.sends (h : InitAt s f y (n + 1) q fs t) (hrow : InitRow s.cfg f y q mosi q') :
    Sat (InitAt s f y n q' (mosi :: fs)) (step t) := by
  obtain ⟨hsent, hin, hq, rfl, rfl⟩ := h
  rw [← hsent.cfg] at hrow
  obtain ⟨m, ha⟩ := exists_spiAnswer hin mosi.length
  rw [stepRunsTheRunning t _ (goodInputs_input hin).1 (hrow.running hq),
    hrow.exec_eq hq hsent.csn ha, advanceOut_next]
  exact ⟨hsent.exchange m rfl rfl rfl rfl, goodInputs_tail hin rfl rfl, rfl, rfl, rfl⟩

/-- R185: the step of the ninth row. -/
theorem InitAt.ends (h : InitAt s f y (n + 1) .initStbSfrx fs t) :
    Sat (Finished s ([s.cfg.map.sfrx, 0x00] :: fs)) (step t) := by
  obtain ⟨hsent, hin, hq, -, -⟩ := h
  obtain ⟨m, ha⟩ := exists_spiAnswer hin 2
  have hrun : t.running = some (.init t.freqw t.sync16) := by simp only [State.running, hq]
  rw [stepRunsTheRunning t _ (goodInputs_input hin).1 hrun, exec_initStbSfrx hq hsent.csn ha,
    advanceOut_next, hsent.cfg]
  exact Sent.finished (hsent.exchange m rfl rfl rfl rfl)

/-- R185: the frames of INIT, newest first. -/
def initFrames (c : Config) (f : BitVec 24) (y : BitVec 16) : List (List Byte) :=
  [[c.map.sfrx, 0x00], [c.map.sftx, 0x00], (c.map.patable ||| 0x40) :: c.patable.toList,
   [c.map.sync0, y.extractLsb' 0 8], [c.map.sync1, y.extractLsb' 8 8],
   [c.map.freq0, f.extractLsb' 0 8], [c.map.freq1, f.extractLsb' 8 8],
   [c.map.freq2, f.extractLsb' 16 8], [c.map.sres, 0x00]]

/-- R185: the nine rows in their order. -/
theorem InitAt.runs (h : InitAt s f y 9 .initStbSres [] t) :
    Sat (Finished s (initFrames s.cfg f y)) (runSteps 9 t) :=
  runSteps_sat (h.sends .stbSres) fun _ h =>
  runSteps_sat (h.sends .wrFreq2) fun _ h =>
  runSteps_sat (h.sends .wrFreq1) fun _ h =>
  runSteps_sat (h.sends .wrFreq0) fun _ h =>
  runSteps_sat (h.sends .wrSync1) fun _ h =>
  runSteps_sat (h.sends .wrSync0) fun _ h =>
  runSteps_sat (h.sends .wrbPatable) fun _ h =>
  runSteps_sat (h.sends .stbSftx) fun _ h =>
  runSteps_sat h.ends fun _ h => h

end InitRun

/-- R347: eight frames of two bytes and the burst of nine. -/
theorem sum_length_initFrames (c : Config) (f : BitVec 24) (y : BitVec 16) :
    ((initFrames c f y).map List.length).sum = 25 := by
  simp [initFrames]

/-- Settles O56: the accepting step, and then the nine rows. -/
theorem initRunsToCompletion : Obligations.InitRunsToCompletion := by
  intro s c rest f y hq hc hhost hdec hin
  have hstep := step_of_admitted (goodInputs_input hin).1 hq hhost hdec rfl
  obtain ⟨t, hrun, hsent, hseq, hdone, herr⟩ :=
    (initAt_entered (s := { s with host := rest }) hc hin).runs.exists_next
  have hframes : sentFrames t.trace = initFrames s.cfg f y ++ sentFrames s.trace := hsent.frames
  refine ⟨t, by rw [runSteps, hstep]; exact hrun, hseq, hdone, herr, hsent.host, hframes, ?_, ?_,
    hsent.samples, hsent.delays⟩
  · rw [transactionCount, hframes, List.length_append]
    exact Nat.add_comm ..
  · rw [byteCount, hframes, List.map_append, List.sum_append, sum_length_initFrames]
    exact Nat.add_comm ..

/-! ### The run of a profile -/

/-- R189: the frame of one pair. -/
def pairFrame (av : Byte × Byte) : List Byte := [av.1, av.2]

/-- The profile `p` is being applied and its first `k` pairs are written, `fs` having been sent
since `s`; `n` good inputs are ahead. -/
structure ProfileAt (s : State) (p : Profile) (n k : Nat) (fs : List (List Byte)) (t : State) :
    Prop extends Sent s fs t where
  inputs : goodInputs n t
  seq : t.seq = .cfgWrite
  profile : t.profile = p
  cfgIdx : t.cfgIdx.toNat = k

section ProfileRun

variable {s t : State} {p : Profile} {n k : Nat} {fs : List (List Byte)}

/-- R122: acceptance selects the profile and starts at its first pair. -/
theorem profileAt_entered {i : Instr} {sel : ProfileSel} (happ : Applies s.cfg i sel p)
    (hc : s.csn = true) (h : goodInputs (n + 1) s) :
    ProfileAt s p n 0 [] (entered i s) := by
  refine ⟨sent_entered i hc, goodInputs_entered i h, ?_, ?_, ?_⟩ <;> cases happ <;> rfl

theorem ProfileAt.step_eq (h : ProfileAt s p (n + 1) k fs t) :
    step t = advanceOut (cfgWriteStep t) := by
  have hb : t.seq ≠ .idle := by simp [h.seq]
  rw [step_of_busy (goodInputs_input h.inputs).1 hb, busyStep_cfgWrite h.seq]

/-- R189: a pair ahead is written. -/
theorem ProfileAt.writes {av : Byte × Byte} (h : ProfileAt s p (n + 1) k fs t)
    (hp : p[k]? = some av) (hk : k < 255) :
    Sat (ProfileAt s p n (k + 1) (pairFrame av :: fs)) (step t) := by
  have hstep := h.step_eq
  obtain ⟨hsent, hin, hq, rfl, rfl⟩ := h
  obtain ⟨m, ha⟩ := exists_spiAnswer hin 2
  have hidx : (t.cfgIdx + 1).toNat = t.cfgIdx.toNat + 1 := by bv_omega
  rw [hstep, cfgWriteStep_of_pair hsent.csn hp ha, advanceOut_next]
  exact ⟨hsent.exchange m rfl rfl rfl rfl, goodInputs_tail hin rfl rfl, hq, rfl, hidx⟩

/-- R189: past the last pair the command ends. -/
theorem ProfileAt.ends (h : ProfileAt s p (n + 1) p.length fs t) :
    Sat (fun u => Finished s fs u ∧ u.cfgIdx.toNat = p.length) (step t) := by
  have hstep := h.step_eq
  obtain ⟨hsent, hin, hq, rfl, hidx⟩ := h
  rw [hstep, cfgWriteStep_of_end hidx, advanceOut_next]
  exact ⟨hsent.finished, hidx⟩

/-- R189: the pairs `todo` behind the written pairs `done`, one step each, and the step that ends
the command. -/
theorem ProfileAt.runs {done todo : Profile} (hlen : (done ++ todo).length ≤ 255)
    (h : ProfileAt s (done ++ todo) (todo.length + 1) done.length fs t) :
    Sat (fun u => Finished s ((todo.map pairFrame).reverse ++ fs) u ∧
      u.cfgIdx.toNat = (done ++ todo).length) (runSteps (todo.length + 1) t) := by
  induction todo generalizing done fs t with
  | nil =>
    rw [List.append_nil] at h ⊢
    exact runSteps_sat h.ends fun _ h => h
  | cons av todo ih =>
    have hk : done.length < 255 := by
      rw [List.length_append, List.length_cons] at hlen
      omega
    refine runSteps_sat (h.writes (av := av) (by simp) hk) fun u hu => ?_
    have hdone : done.length + 1 = (done ++ [av]).length := by simp
    rw [List.append_cons] at hlen hu ⊢
    rw [hdone] at hu
    simpa using ih hlen hu

end ProfileRun

/-- Settles O57: the accepting step, and then the pairs of the profile, by induction. -/
theorem profileRunsToCompletion : Obligations.ProfileRunsToCompletion := by
  intro s c rest i p hq hc hhost hdec hi hlen hin
  obtain ⟨sel, happ⟩ : ∃ sel, Applies s.cfg i sel p := by
    rcases hi with ⟨rfl, rfl⟩ | ⟨rfl, rfl⟩
    · exact ⟨_, .rx⟩
    · exact ⟨_, .tx⟩
  have hcheck : check s.cfg i = none := by cases happ <;> rfl
  have hstep := step_of_admitted (goodInputs_input hin).1 hq hhost hdec hcheck
  have hat := profileAt_entered (s := { s with host := rest }) happ hc hin
  obtain ⟨t, hrun, ⟨hsent, hseq, hdone, herr⟩, hidx⟩ :=
    (ProfileAt.runs (done := []) hlen hat).exists_next
  have hframes := hsent.frames
  rw [List.append_nil] at hframes
  exact ⟨t, by rw [runSteps, hstep]; exact hrun, hseq, hdone, herr, hsent.host, hidx, hframes,
    hsent.samples, hsent.delays⟩

end Sys2Proof.ConfigInit
end

section
/-! SUPPORT and proofs for 43_rx_sequence.md: the steps of RXPKT (R212 to R220), and its shortest
path as a whole run. `ReceiveAt` says where the run stands; a sample is counted by giving the run's
start the same sample (`sent_sampled`), so that `Sent` serves here too. -/

namespace Sys2Proof.Receive

open Sys2Proof.Machine Sys2Proof.Laws Sys2Proof.Safety
open Sys2Proof.Sequencer Sys2Proof.Transactions Sys2Proof.ConfigInit

/-! ### The steps of RXPKT -/

theorem stbThenWait_ok {s : State} {addr : Byte} {q : FineState} {m : List Byte}
    (hc : s.csn = true) (ha : s.spiAnswer 2 = some m) :
    stbThenWait addr q s = .next { afterXfer [addr, 0x00] m s with pollCnt := 0, seq := q } := by
  rw [stbThenWait, stb_ok hc ha, goto_eq]; rfl

/-- Settles O31: the write of PKTLEN, then the strobe that enters a wait. -/
theorem receiveConfigures : Obligations.ReceiveConfigures := by
  rintro s _ m hc rfl ha
  constructor <;> intro hq <;> simp only [exec, execRxpkt, hq]
  · exact wr1Then_ok hc ha
  · exact stbThenWait_ok hc ha

/-- R129: a poll that is made and answered leaves the wait or is counted in it. -/
theorem pollStep_answered {α : Type} {k : PollKind} {poll : (α → State → Out) → State → Out}
    {sat : α → Bool} {next : FineState} {s u : State} {v : α} (hp : polls k s = true)
    (hpoll : ∀ f : α → State → Out, poll f s = f v u) (hseq : u.seq = s.seq) :
    pollStep k poll sat next s.seq s =
      .next (if sat v = true then { u with pollCnt := 0, seq := next }
        else { u with pollCnt := u.pollCnt + 1 }) := by
  rw [pollStep_poll hp, hpoll, ← hseq]
  cases sat v <;> rfl

/-- Settles O32: a poll that is made is answered by the sample. -/
theorem receiveEdgeWaits : Obligations.ReceiveEdgeWaits := by
  intro s _ g _ hg
  constructor <;> intro hq hp <;> simp only [exec, execRxpkt, hq] <;>
    rw [← hq, pollStep_answered hp (fun _ => gdoSample_ok hg) rfl]
  · rfl
  · cases g <;> rfl

/-- R216: all the bytes received after the first are the packet's. -/
theorem decodePacket_of_length {n : Byte} {m : List Byte} (hm : m.length = n.toNat + 1) :
    decodePacket n m = unpack m.tail := by
  rw [decodePacket, List.drop_one, List.take_of_length_le (by simp [hm])]

/-- Settles O33: the burst read is not refused, and its answer is `LEN + 1` bytes long. -/
theorem receiveReadsFifo : Obligations.ReceiveReadsFifo := by
  rintro s _ m hq hc rfl hfits ha
  simp only [exec, execRxpkt, hq]
  rw [rxReadFifo, rdb_ok hc hfits ha, goto_eq, ← decodePacket_of_length (spiAnswer_length ha)]
  rfl

/-- R219. -/
theorem marcIsIdle_iff {v : Byte} : marcIsIdle v = true ↔ v &&& 0x1F = 0x01 := beq_iff_eq

/-- Settles O35: the strobe that enters the MARCSTATE wait, that wait's poll, and the last
strobe. -/
theorem receiveCleansUp : Obligations.ReceiveCleansUp := by
  intro s n hc _
  refine ⟨fun m ha => ⟨fun hq => ?_, fun hq => ?_⟩, fun b v ha hq hp => ?_⟩ <;>
    simp only [exec, execRxpkt, hq]
  · exact stbThenWait_ok hc ha
  · exact stbFinish_ok hc ha
  · rw [← hq, pollStep_answered hp (fun _ => rd1_ok hc ha) rfl]
    simp only [← marcIsIdle_iff]
    rfl

/-! ### A calm input -/

section Calm

variable {s t : State} {i : StepInput} {env : List StepInput}

/-- A calm input is a good one. -/
theorem goodInputs_of_calm (henv : t.env = i :: env) (hi : calmInput t.cfg i) : goodInputs 1 t := by
  obtain ⟨hrst, -, hspi⟩ := hi
  simpa [goodInputs, henv, hrst] using hspi

/-- R62: an answer as long as what is sent is received as it stands. -/
theorem spiAnswer_of_ok {m : List Byte} {k : Nat} (henv : t.env = i :: env) (hm : i.spi = .ok m)
    (hk : m.length = k) : t.spiAnswer k = some m := by
  subst hk
  simp only [State.spiAnswer, input_of_cons henv, hm, fit_of_length]

theorem gdoAnswer_of_ok {g : Bool} (henv : t.env = i :: env) (hg : i.gdo = .ok g) :
    t.gdoAnswer = some g := by
  simp only [State.gdoAnswer, input_of_cons henv, hg]

/-- R8: a limit is positive, so that it is not reached before the first poll. -/
theorem limitReached_zero {l : PollLimit} (h : l.wf = true) : limitReached l 0 = false := by
  cases l with
  | inf => rfl
  | polls n => simpa [PollLimit.wf, limitReached, Nat.pos_iff_ne_zero] using h

theorem limit_wf {c : Config} (h : c.wf = true) (k : PollKind) : (k.limit c).wf = true := by
  simp only [Config.wf, Bool.and_eq_true] at h
  obtain ⟨⟨⟨⟨-, hedge⟩, hmarc⟩, hdrain⟩, -⟩ := h
  cases k with
  | edgeRise => exact hedge
  | edgeFall => exact hedge
  | marc => exact hmarc
  | drain => exact hdrain

/-- R129: the first poll of a wait is made under a calm input. -/
theorem polls_of_calm (henv : t.env = i :: env) (hi : calmInput t.cfg i) (hwf : t.cfg.wf = true)
    (hcnt : t.pollCnt = 0) (k : PollKind) : polls k t = true := by
  obtain ⟨-, habort, -⟩ := hi
  have hno : t.abortRequested = false := by
    simp only [State.abortRequested, input_of_cons henv]
    cases hc : t.cfg.hasAbort with
    | true => simp [habort hc]
    | false => rfl
  rw [polls, hno, hcnt, limitReached_zero (limit_wf hwf k)]
  rfl

end Calm

/-! ### The shortest path of RXPKT -/

theorem sampleCount_cons (e : Event) (tr : List Event) :
    sampleCount (e :: tr) = e.samples + sampleCount tr := List.sum_cons

theorem delayTotal_cons (e : Event) (tr : List Event) :
    delayTotal (e :: tr) = e.delayMs + delayTotal tr := List.sum_cons

/-- R128: a sample that ends a run from `s` stands in the count at `s` as well. -/
theorem sent_sampled {s t u : State} {fs : List (List Byte)} {g : Bool} (h : Sent s fs t)
    (hcsn : u.csn = t.csn) (hcfg : u.cfg = t.cfg) (hhost : u.host = t.host)
    (htrace : u.trace = .gdo g :: t.trace) : Sent (s.event (.gdo g)) fs u where
  csn := hcsn.trans h.csn
  cfg := hcfg.trans h.cfg
  host := hhost.trans h.host
  frames := by rw [htrace]; exact h.frames
  samples := by rw [htrace, event_trace, sampleCount_cons, sampleCount_cons, h.samples]
  delays := by rw [htrace, event_trace, delayTotal_cons, delayTotal_cons, h.delays]

/-- The registers R216 fills: RBUF, RLEN, RX_BITS and RX_NBITS. -/
def received (t : State) : Vector Byte 256 × BitVec 9 × BitString × BitVec 12 :=
  (t.rbuf, t.rlen, t.rxBits, t.rxNbits)

/-- R216: those registers after a read of `m` by a RXPKT of `n` bytes, RBUF having been `old`. -/
def packetRead (old : Vector Byte 256) (n : Byte) (m : List Byte) :
    Vector Byte 256 × BitVec 9 × BitString × BitVec 12 :=
  (overwrite old m, BitVec.ofNat 9 (n.toNat + 1), unpack m.tail, BitVec.ofNat 12 (8 * n.toNat))

/-- RXPKT of `n` bytes runs in `q`, having sent `fs` since `s`; no poll has been counted, the
registers of R216 hold `r`, and the inputs `env` are ahead. -/
structure ReceiveAt (s : State) (n : Byte) (env : List StepInput) (q : FineState)
    (fs : List (List Byte)) (r : Vector Byte 256 × BitVec 9 × BitString × BitVec 12) (t : State) :
    Prop extends Sent s fs t where
  env : t.env = env
  seq : t.seq = q
  len : t.len = n
  pollCnt : t.pollCnt = 0
  received : received t = r

/-- R132: in the fine states of RXPKT, RXPKT runs. -/
theorem running_of_seqFits {t : State} (hb : t.seq ≠ .idle)
    (h : seqFits t.seq opRxpkt = true) : t.running = some (.rxpkt t.len) := by
  unfold State.running
  cases hq : t.seq
  case idle => exact absurd hq hb
  case rxWrPktlen | rxStbSrx | rxWaitRise | rxWaitFall | rxRdbFifo | rxStbSidle | rxWaitIdle
    | rxStbSfrx => rfl
  all_goals
    rw [hq] at h
    exact absurd h (by decide)

section ReceiveRun

variable {s t u : State} {n : Byte} {i : StepInput} {env : List StepInput} {q q' : FineState}
  {fs : List (List Byte)} {r : Vector Byte 256 × BitVec 9 × BitString × BitVec 12}
  {mosi m : List Byte}

theorem ReceiveAt.calm (h : ReceiveAt s n (i :: env) q fs r t) (hi : calmInput s.cfg i) :
    calmInput t.cfg i := by rwa [h.cfg]

theorem ReceiveAt.env_tail (h : ReceiveAt s n (i :: env) q fs r t) : t.env.tail = env := by
  rw [h.env, List.tail_cons]

/-- R127: the chip answers. -/
theorem ReceiveAt.exists_answer (h : ReceiveAt s n (i :: env) q fs r t) (hi : calmInput s.cfg i)
    (k : Nat) : ∃ m, t.spiAnswer k = some m :=
  exists_spiAnswer (goodInputs_of_calm h.env (h.calm hi)) k

/-- R129: the poll is made. -/
theorem ReceiveAt.polls (h : ReceiveAt s n (i :: env) q fs r t) (hi : calmInput s.cfg i)
    (hwf : s.cfg.wf = true) (k : PollKind) : polls k t = true :=
  polls_of_calm h.env (h.calm hi) (by rwa [h.cfg]) h.pollCnt k

/-- R132: the step is RXPKT's. -/
theorem ReceiveAt.sat_step {P : State → Prop} (h : ReceiveAt s n (i :: env) q fs r t)
    (hi : calmInput s.cfg i) (hb : q ≠ .idle) (hfit : seqFits q opRxpkt = true)
    (hexec : exec (.rxpkt n) t = .next u) (hp : P (advance u)) : Sat P (step t) := by
  have hrun : t.running = some (.rxpkt n) := by
    rw [running_of_seqFits (by rwa [h.seq]) (by rwa [h.seq]), h.len]
  have hrst := (goodInputs_input (goodInputs_of_calm h.env (h.calm hi))).1
  rw [stepRunsTheRunning t _ hrst hrun, hexec]
  exact hp

/-- A transaction that moves on. -/
theorem ReceiveAt.exchanges (h : ReceiveAt s n (i :: env) q fs r t) (hi : calmInput s.cfg i)
    (hb : q ≠ .idle) (hfit : seqFits q opRxpkt = true)
    (hexec : exec (.rxpkt n) t = .next { afterXfer mosi m t with pollCnt := 0, seq := q' }) :
    Sat (ReceiveAt s n env q' (mosi :: fs) r) (step t) :=
  h.sat_step hi hb hfit hexec
    ⟨h.exchange m rfl rfl rfl rfl, h.env_tail, rfl, h.len, rfl, h.received⟩

/-- R212. -/
theorem ReceiveAt.writesPktlen (h : ReceiveAt s n (i :: env) .rxWrPktlen fs r t)
    (hi : calmInput s.cfg i) :
    Sat (ReceiveAt s n env .rxStbSrx ([s.cfg.map.pktlen, n] :: fs) r) (step t) := by
  obtain ⟨m, ha⟩ := h.exists_answer hi 2
  have hexec := (receiveConfigures t n m h.csn h.len ha).1 h.seq
  rw [h.cfg] at hexec
  exact h.sat_step hi nofun rfl hexec
    ⟨h.exchange m rfl rfl rfl rfl, h.env_tail, rfl, h.len, h.pollCnt, h.received⟩

/-- R213. -/
theorem ReceiveAt.strobesSrx (h : ReceiveAt s n (i :: env) .rxStbSrx fs r t)
    (hi : calmInput s.cfg i) :
    Sat (ReceiveAt s n env .rxWaitRise ([s.cfg.map.srx, 0x00] :: fs) r) (step t) := by
  obtain ⟨m, ha⟩ := h.exists_answer hi 2
  have hexec := (receiveConfigures t n m h.csn h.len ha).2 h.seq
  rw [h.cfg] at hexec
  exact h.exchanges hi nofun rfl hexec

/-- R128: a sample that moves on. -/
theorem ReceiveAt.takesSample {g : Bool} (h : ReceiveAt s n (i :: env) q fs r t)
    (hi : calmInput s.cfg i) (hb : q ≠ .idle) (hfit : seqFits q opRxpkt = true)
    (hexec : exec (.rxpkt n) t =
      .next { t with trace := .gdo g :: t.trace, pollCnt := 0, seq := q' }) :
    Sat (ReceiveAt (s.event (.gdo g)) n env q' fs r) (step t) :=
  h.sat_step hi hb hfit hexec
    ⟨sent_sampled h.toSent rfl rfl rfl rfl, h.env_tail, rfl, h.len, rfl, h.received⟩

/-- R214. -/
theorem ReceiveAt.rises (h : ReceiveAt s n (i :: env) .rxWaitRise fs r t)
    (hi : calmInput s.cfg i) (hwf : s.cfg.wf = true) (hg : i.gdo = .ok true) :
    Sat (ReceiveAt (s.event (.gdo true)) n env .rxWaitFall fs r) (step t) :=
  h.takesSample hi nofun rfl ((receiveEdgeWaits t n true h.len (gdoAnswer_of_ok h.env hg)).1 h.seq
    (h.polls hi hwf _))

/-- R215. -/
theorem ReceiveAt.falls (h : ReceiveAt s n (i :: env) .rxWaitFall fs r t)
    (hi : calmInput s.cfg i) (hwf : s.cfg.wf = true) (hg : i.gdo = .ok false) :
    Sat (ReceiveAt (s.event (.gdo false)) n env .rxRdbFifo fs r) (step t) :=
  h.takesSample hi nofun rfl ((receiveEdgeWaits t n false h.len (gdoAnswer_of_ok h.env hg)).2 h.seq
    (h.polls hi hwf _))

/-- R216. -/
theorem ReceiveAt.reads (h : ReceiveAt s n (i :: env) .rxRdbFifo fs r t) (hi : calmInput s.cfg i)
    (hfits : ¬ (s.cfg.rdbOverflow = .refuse ∧ 0xFF < s.cfg.map.rxfifo.toNat + 8 * n.toNat))
    (hm : i.spi = .ok m) (hlen : m.length = n.toNat + 1) :
    Sat (ReceiveAt s n env .rxStbSidle (rdbMosi s.cfg.map.rxfifo n :: fs) (packetRead r.1 n m))
      (step t) := by
  rw [← h.cfg] at hfits
  have hexec := receiveReadsFifo t n m h.seq h.csn h.len hfits (spiAnswer_of_ok h.env hm hlen)
  rw [h.cfg] at hexec
  refine h.sat_step hi nofun rfl hexec
    ⟨h.exchange m rfl rfl rfl rfl, h.env_tail, rfl, h.len, h.pollCnt, ?_⟩
  rw [← h.received]
  rfl

/-- R218. -/
theorem ReceiveAt.strobesSidle (h : ReceiveAt s n (i :: env) .rxStbSidle fs r t)
    (hi : calmInput s.cfg i) :
    Sat (ReceiveAt s n env .rxWaitIdle ([s.cfg.map.sidle, 0x00] :: fs) r) (step t) := by
  obtain ⟨m, ha⟩ := h.exists_answer hi 2
  have hexec := ((receiveCleansUp t n h.csn h.len).1 m ha).1 h.seq
  rw [h.cfg] at hexec
  exact h.exchanges hi nofun rfl hexec

/-- R219. -/
theorem ReceiveAt.findsIdle {b v : Byte} (h : ReceiveAt s n (i :: env) .rxWaitIdle fs r t)
    (hi : calmInput s.cfg i) (hwf : s.cfg.wf = true) (hm : i.spi = .ok [b, v])
    (hv : v &&& 0x1F = 0x01) :
    Sat (ReceiveAt s n env .rxStbSfrx ([s.cfg.map.marcstate ||| 0x80, 0x00] :: fs) r) (step t) := by
  have hexec := (receiveCleansUp t n h.csn h.len).2 b v (spiAnswer_of_ok h.env hm rfl) h.seq
    (h.polls hi hwf _)
  simp only [if_pos hv, h.cfg] at hexec
  exact h.exchanges hi nofun rfl hexec

/-- R220. -/
theorem ReceiveAt.ends (h : ReceiveAt s n (i :: env) .rxStbSfrx fs r t) (hi : calmInput s.cfg i) :
    Sat (fun u => Finished s ([s.cfg.map.sfrx, 0x00] :: fs) u ∧ Receive.received u = r)
      (step t) := by
  obtain ⟨m, ha⟩ := h.exists_answer hi 2
  have hexec := ((receiveCleansUp t n h.csn h.len).1 m ha).2 h.seq
  rw [h.cfg] at hexec
  exact h.sat_step hi nofun rfl hexec ⟨Sent.finished (h.exchange m rfl rfl rfl rfl), h.received⟩

/-- R122: acceptance latches LEN and enters the write of PKTLEN. -/
theorem receiveAt_entered (hc : s.csn = true) (henv : s.env = i :: env) :
    ReceiveAt s n env .rxWrPktlen [] (received s) (entered (.rxpkt n) s) :=
  ⟨sent_entered _ hc, congrArg List.tail henv, rfl, rfl, rfl, rfl⟩

end ReceiveRun

/-- R212 to R220: the frames of RXPKT on its shortest path, newest first. -/
def receiveFrames (c : Config) (n : Byte) : List (List Byte) :=
  [[c.map.sfrx, 0x00], [c.map.marcstate ||| 0x80, 0x00], [c.map.sidle, 0x00],
   rdbMosi c.map.rxfifo n, [c.map.srx, 0x00], [c.map.pktlen, n]]

/-- R347: five frames of two bytes and the burst of `LEN + 1`. -/
theorem sum_length_receiveFrames (c : Config) (n : Byte) :
    ((receiveFrames c n).map List.length).sum = n.toNat + 11 := by
  simp only [receiveFrames, List.map_cons, List.map_nil, List.sum_cons, List.sum_nil,
    List.length_cons, List.length_nil, length_rdbMosi]
  omega

/-- Settles O58: the accepting step, and then the eight steps of the shortest path. -/
theorem receiveRunsToCompletion : Obligations.ReceiveRunsToCompletion := by
  intro s c rest n i0 i1 i2 i3 i4 i5 i6 i7 i8 more m b v hq hc hhost hdec hwf hfits henv hcalm
    hrise hfall hm hlen hmarc hv
  simp only [List.forall_mem_cons] at hcalm
  obtain ⟨c0, c1, c2, c3, c4, c5, c6, c7, c8, -⟩ := hcalm
  have hrst := (goodInputs_input (goodInputs_of_calm henv c0)).1
  have hstep := step_of_admitted hrst hq hhost hdec (checkBurstRead_eq_none.mpr hfits)
  have hentered := receiveAt_entered (s := { s with host := rest }) (n := n) hc henv
  have hrun := runSteps_sat (hentered.writesPktlen c1) fun _ h =>
    runSteps_sat (h.strobesSrx c2) fun _ h =>
    runSteps_sat (h.rises c3 hwf hrise) fun _ h =>
    runSteps_sat (h.falls c4 hwf hfall) fun _ h =>
    runSteps_sat (h.reads c5 hfits hm hlen) fun _ h =>
    runSteps_sat (h.strobesSidle c6) fun _ h =>
    runSteps_sat (h.findsIdle c7 hwf hmarc hv) fun _ h =>
    runSteps_sat (n := 0) (h.ends c8) fun _ h => h
  obtain ⟨t, hrun, ⟨hsent, hseq, hdone, herr⟩, hres⟩ := hrun.exists_next
  simp only [received, packetRead, Prod.mk.injEq] at hres
  obtain ⟨hrbuf, hrlen, hbits, hnbits⟩ := hres
  have hframes : sentFrames t.trace = receiveFrames s.cfg n ++ sentFrames s.trace := hsent.frames
  refine ⟨t, by rw [runSteps, hstep]; exact hrun, hseq, hdone, herr, hsent.host, hbits, hnbits,
    hrbuf, hrlen, hframes, ?_, ?_, ?_, ?_⟩
  · rw [transactionCount, hframes, List.length_append]
    exact Nat.add_comm ..
  · rw [byteCount, hframes, List.map_append, List.sum_append, sum_length_receiveFrames]
    exact Nat.add_comm ..
  · have hsamples := hsent.samples
    simp only [event_trace, sampleCount_cons, Event.samples] at hsamples
    omega
  · have hdelays := hsent.delays
    simp only [event_trace, delayTotal_cons, Event.delayMs] at hdelays
    omega

end Sys2Proof.Receive
end

section
/-! SUPPORT and proofs for 44_tx_sequence.md: the frame (R243, R244), the steps of TXPKT (R245 to
R259), and its shortest path as a whole run. `TransmitAt` says where the run stands; a delay is
counted by giving the run's start the same delay (`sent_delayed`), so that `Sent` serves here
too. -/

namespace Sys2Proof.Transmit

open Sys2Proof.Machine Sys2Proof.Laws Sys2Proof.Safety Sys2Proof.Scope Sys2Proof.Registers
open Sys2Proof.Encoding Sys2Proof.Sequencer Sys2Proof.ConfigInit Sys2Proof.Receive

/-! ### The frame -/

/-- R243: eight bits of the preamble are the byte 0xAA. -/
theorem preamble_bytes (k : Nat) : preamble (8 * k) = unpack (List.replicate k 0xAA) := by
  induction k with
  | zero => rfl
  | succ k ih =>
    have hlast : ((List.range 8).map fun j => (8 * k + j) % 2 == 0) = unpack [0xAA] := by
      have hparity (j : Nat) : (8 * k + j) % 2 = j % 2 := by omega
      simp only [hparity]
      decide
    rw [preamble, Nat.mul_succ, List.range_add, List.map_append, List.map_map, List.replicate_succ',
      unpack, List.flatMap_append]
    exact congrArg₂ (· ++ ·) ih hlast

/-- R243: the sync word goes out high byte first. -/
theorem wordBits_bytes (w : BitVec 16) :
    wordBits w = unpack [w.extractLsb' 8 8, w.extractLsb' 0 8] := by
  simp [wordBits, List.range_succ, unpack, unpackByte]

/-- R243: the bits of the frame of a whole number of payload bytes are those of whole bytes. -/
theorem frameBits_bytes (y : BitVec 16) {b : BitString} (hb : b.length ≤ 496)
    (h8 : b.length % 8 = 0) :
    frameBits y b = unpack (List.replicate (62 - b.length / 8) 0xAA ++
      [y.extractLsb' 8 8, y.extractLsb' 0 8] ++ pack b) := by
  have hpad : paddingBits b.length = 8 * (62 - b.length / 8) := by
    simp only [paddingBits, frameCapBits, syncBits]
    omega
  have hb8 : b = unpack (pack b) := (unpack_pack (b.length / 8) b (by omega)).symm
  rw [frameBits, hpad, preamble_bytes, wordBits_bytes]
  simp only [unpack, List.flatMap_append]
  exact congrArg _ hb8

/-- Settles O37: `pack` gives back the bytes of `frameBits_bytes`. -/
theorem frameLayout : Obligations.FrameLayout := by
  intro y b hb h8
  refine ⟨?_, length_frameBytes y hb h8⟩
  rw [frameBytes, frameBits_bytes y hb h8, pack_unpack]

/-! ### The steps of TXPKT -/

/-- R245. -/
theorem txBuildFrame_of_legal {s : State} (hle : s.plen.toNat ≤ 496) (h8 : s.plen.toNat % 8 = 0) :
    txBuildFrame s = .next { s with
      frame := overwrite s.frame (frameBytes s.sync16 s.txPayload)
      frameLen := 64
      seq := .txWrPktlen } := by
  rw [txBuildFrame, if_pos (payloadLegal_iff.mpr ⟨hle, h8⟩), goto_eq]

/-- Settles O36: the frame of the latched operands, the write of its length, and the strobe that
enters a wait. -/
theorem transmitFrames : Obligations.TransmitFrames := by
  rintro s _ _ _ rfl rfl rfl
  refine ⟨fun hq hle h8 => ?_, fun m hc ha => ⟨fun hq => ?_, fun hq => ?_⟩⟩ <;>
    simp only [exec, execTxpkt, hq]
  · exact txBuildFrame_of_legal hle h8
  · exact wr1Then_ok hc ha
  · exact stbThenWait_ok hc ha

/-- Settles O38: the poll of MARCSTATE, the strobe and the delay. -/
theorem transmitFlushes : Obligations.TransmitFlushes := by
  intro s y n p hc _ _ _
  refine ⟨fun b v ha hq hp => ?_, fun m ha hq => ?_, fun hq => ?_⟩ <;>
    simp only [exec, execTxpkt, hq]
  · rw [← hq, pollStep_answered hp (fun _ => rd1_ok hc ha) rfl]
    simp only [← marcIsIdle_iff]
    rfl
  · exact stbThen_ok hc ha
  · exact delayThen_eq ..

theorem length_framePayload {s : State} (hl : s.frameLen.toNat ≤ 64) :
    s.framePayload.length = s.frameLen.toNat := by
  simp [State.framePayload, hl]

/-- R252: a frame that fits its buffer is sent in one burst. -/
theorem txLoadFifo_ok {s : State} {m : List Byte} (hc : s.csn = true)
    (hl : s.frameLen.toNat ≤ 64) (ha : s.spiAnswer (s.frameLen.toNat + 1) = some m) :
    txLoadFifo s = .next
      { afterXfer (wrbMosi s.cfg.map.txfifo s.framePayload) m s with seq := .txStbStx } := by
  rw [← length_framePayload hl] at ha
  rw [txLoadFifo, if_pos hl, wrbThen_ok hc ha]

/-- Settles O39: the burst, and the strobe that enters the drain loop. -/
theorem transmitLoadsAndStarts : Obligations.TransmitLoadsAndStarts := by
  intro s y n p m hc _ _ _
  refine ⟨fun hq hl ha => ?_, fun hq ha => ?_⟩ <;> simp only [exec, execTxpkt, hq]
  · exact txLoadFifo_ok hc hl ha
  · exact stbThenWait_ok hc ha

/-- R130. -/
theorem abortRequested_iff {s : State} :
    s.abortRequested = true ↔ s.cfg.hasAbort = true ∧ s.input.abortReq = true := by
  rw [State.abortRequested, Bool.and_eq_true]

/-- R254: the count is drained when its low seven bits are 0. -/
theorem drained_iff {v : Byte} : (pendingBytes v == 0) = true ↔ v &&& 0x7F = 0 := beq_iff_eq

/-- Settles O40: the three ways the poll of TXBYTES goes on, in the order of R294, and the
backoff. -/
theorem transmitDrains : Obligations.TransmitDrains := by
  intro s y n p hc _ _ _
  refine ⟨fun hq => ⟨fun habort hreq => ?_, fun hno l hlim hle => ?_, fun b v ha hp => ?_⟩,
    fun hq => ?_⟩ <;> simp only [exec, execTxpkt, hq]
  · rw [pollStep_cancel (abortRequested_iff.mpr ⟨habort, hreq⟩), hq]
    rfl
  · have hnot : s.abortRequested = false := Bool.eq_false_iff.mpr (mt abortRequested_iff.mp hno)
    have hreached : limitReached (PollKind.drain.limit s.cfg) s.pollCnt = true := by
      rw [PollKind.limit, hlim]
      exact decide_eq_true hle
    rw [pollStep_timeout hnot hreached, hq]
    rfl
  · rw [pollStep_poll hp, rd1_ok hc ha]
    simp only [← drained_iff]
    exact (apply_ite _ ..).symm
  · exact delayThen_eq ..

/-- R259: nothing is left. -/
theorem txVerdict_of_drained {v : Byte} (hv : v &&& 0x7F = 0) (t : State) :
    txVerdict v t = .next (ended { t with residual := 0, txOk := true }) := by
  have hr : pendingBytes v = 0 := hv
  simp only [txVerdict, hr, if_true, finishCommand_eq]
  rfl

/-- R259: bytes are left. -/
theorem txVerdict_of_pending {v : Byte} (hv : v &&& 0x7F ≠ 0) (t : State) :
    txVerdict v t = .next (endedWith .txUnderflow (v &&& 0x7F) t.seq.code
      { t with residual := (v &&& 0x7F).setWidth 7, txOk := false }) := by
  have hr : pendingBytes v ≠ 0 := hv
  simp only [txVerdict, if_neg hr, fail_eq (show ErrCode.txUnderflow ≠ .none by decide),
    beq_eq_false_iff_ne.mpr hr]
  rfl

/-- Settles O41: two strobes, the delay, and the two verdicts on the count read. -/
theorem transmitChecks : Obligations.TransmitChecks := by
  intro s y n p hc _ _ _
  refine ⟨fun m ha => ⟨fun hq => ?_, fun hq => ?_⟩, fun hq => ?_,
    fun b v ha hq => ⟨fun hv => ?_, fun hv => ?_⟩⟩ <;> simp only [exec, execTxpkt, hq]
  · exact stbThen_ok hc ha
  · exact stbThen_ok hc ha
  · exact delayThen_eq ..
  · rw [rd1_ok hc ha]
    exact txVerdict_of_drained hv _
  · rw [rd1_ok hc ha]
    refine (txVerdict_of_pending hv _).trans ?_
    rw [show (afterXfer (rd1Mosi s.cfg.map.txbytes) [b, v] s).seq = .txCheck from hq]
    rfl

/-! ### The shortest path of TXPKT -/

/-- R131: a delay after a run from `s` stands in the total at `s` as well. -/
theorem sent_delayed {s t u : State} {fs : List (List Byte)} {ms : Nat} (h : Sent s fs t)
    (hcsn : u.csn = t.csn) (hcfg : u.cfg = t.cfg) (hhost : u.host = t.host)
    (htrace : u.trace = .delay ms :: t.trace) : Sent (s.event (.delay ms)) fs u where
  csn := hcsn.trans h.csn
  cfg := hcfg.trans h.cfg
  host := hhost.trans h.host
  frames := by rw [htrace]; exact h.frames
  samples := by rw [htrace, event_trace, sampleCount_cons, sampleCount_cons, h.samples]
  delays := by rw [htrace, event_trace, delayTotal_cons, delayTotal_cons, h.delays]

/-- R124: a completion, normal or not, sends nothing. -/
theorem sent_completed {s t u : State} {fs : List (List Byte)} {e : ErrCode} {info : Byte}
    (h : Sent s fs t) (hcsn : u.csn = t.csn) (hcfg : u.cfg = t.cfg) (hhost : u.host = t.host)
    (htrace : u.trace = .done e info :: t.trace) : Sent s fs u where
  csn := hcsn.trans h.csn
  cfg := hcfg.trans h.cfg
  host := hhost.trans h.host
  frames := by rw [htrace]; exact h.frames
  samples := by rw [htrace, sampleCount_cons, h.samples]; exact Nat.zero_add _
  delays := by rw [htrace, delayTotal_cons, h.delays]; exact Nat.zero_add _

/-- R132: once the frame is built, TXPKT runs. -/
theorem running_of_frameBuilt {t : State} (h : frameBuilt t.seq = true) :
    t.running = some (.txpkt t.sync16 t.plen t.txPayload) := by
  unfold State.running
  cases hq : t.seq
  case txWrPktlen | txStbSidle | txWaitIdle | txStbSftx | txSettle1 | txWrbFifo | txStbStx
    | txPollDrain | txBackoff | txStbSftx2 | txStbSfrx | txSettle2 | txCheck => rfl
  all_goals simp [frameBuilt, hq] at h

/-- R247 to R257, the transactions that move on whatever the answer, for a 64-byte frame `fr`: the
fine state, its transaction and the next state. -/
inductive TransmitRow (c : Config) (fr : List Byte) :
    FineState → List Byte → FineState → Prop where
  | wrPktlen : TransmitRow c fr .txWrPktlen [c.map.pktlen, 0x40] .txStbSidle
  | stbSidle : TransmitRow c fr .txStbSidle [c.map.sidle, 0x00] .txWaitIdle
  | stbSftx : TransmitRow c fr .txStbSftx [c.map.sftx, 0x00] .txSettle1
  | wrbFifo : TransmitRow c fr .txWrbFifo ((c.map.txfifo ||| 0x40) :: fr) .txStbStx
  | stbStx : TransmitRow c fr .txStbStx [c.map.stx, 0x00] .txPollDrain
  | stbSftx2 : TransmitRow c fr .txStbSftx2 [c.map.sftx, 0x00] .txStbSfrx
  | stbSfrx : TransmitRow c fr .txStbSfrx [c.map.sfrx, 0x00] .txSettle2

theorem TransmitRow.frameBuilt_eq {c : Config} {fr mosi : List Byte} {q q' : FineState}
    (h : TransmitRow c fr q mosi q') : frameBuilt q = true := by
  cases h <;> rfl

theorem framePayload_of_full {s : State} (hlen : s.frameLen = 64) :
    s.framePayload = s.frame.toList := by
  rw [State.framePayload, hlen]
  exact List.take_of_length_le (by simp)

/-- A step that keeps POLLCNT at 0 may as well clear it. -/
theorem next_of_pollCnt {o : Out} {u : State} {q : FineState} (h : o = .next { u with seq := q })
    (hn : u.pollCnt = 0) : o = .next { u with pollCnt := 0, seq := q } := by
  rw [h, ← hn]

/-- A row's step, with the 64-byte frame in its buffer. -/
theorem TransmitRow.exec_eq {y n : BitVec 16} {p : BitString} {q q' : FineState}
    {mosi m : List Byte} {s : State} (h : TransmitRow s.cfg s.frame.toList q mosi q')
    (hq : s.seq = q) (hc : s.csn = true) (hlen : s.frameLen = 64) (hn : s.pollCnt = 0)
    (ha : s.spiAnswer mosi.length = some m) :
    exec (.txpkt y n p) s = .next { afterXfer mosi m s with pollCnt := 0, seq := q' } := by
  cases h <;> simp only [exec, execTxpkt, hq]
  case wrPktlen =>
    have hbyte : s.frameLenByte = 0x40 := by rw [State.frameLenByte, hlen]; rfl
    rw [hbyte]
    exact next_of_pollCnt (wr1Then_ok hc ha) hn
  case stbSidle => exact stbThenWait_ok hc ha
  case stbSftx => exact next_of_pollCnt (stbThen_ok hc ha) hn
  case wrbFifo =>
    have hload := txLoadFifo_ok (m := m) hc (by rw [hlen]; decide) (by simpa [hlen] using ha)
    rw [framePayload_of_full hlen] at hload
    exact next_of_pollCnt hload hn
  case stbStx => exact stbThenWait_ok hc ha
  case stbSftx2 => exact next_of_pollCnt (stbThen_ok hc ha) hn
  case stbSfrx => exact next_of_pollCnt (stbThen_ok hc ha) hn

/-- TXPKT runs in `q` with the operands `y`, `n` and `p` and its frame built, having sent `fs` since
`s`; no poll has been counted, and the inputs `env` are ahead. -/
structure TransmitAt (s : State) (y n : BitVec 16) (p : BitString) (env : List StepInput)
    (q : FineState) (fs : List (List Byte)) (t : State) : Prop extends Sent s fs t where
  env : t.env = env
  seq : t.seq = q
  sync16 : t.sync16 = y
  plen : t.plen = n
  payload : t.txPayload = p
  pollCnt : t.pollCnt = 0
  frameLen : t.frameLen = 64
  frame : t.frame.toList = frameBytes y p

/-- R259: TXPKT has ended with the TXBYTES value `v`, with `Sent` of its whole run. -/
structure Checked (s : State) (fr : List Byte) (v : Byte) (fs : List (List Byte)) (t : State) :
    Prop extends Sent s fs t where
  seq : t.seq = .idle
  done : t.done = true
  txOk : t.txOk = decide (v &&& 0x7F = 0)
  residual : t.residual = (v &&& 0x7F).setWidth 7
  err : t.err = if v &&& 0x7F = 0 then .none else .txUnderflow
  errInfo : t.errInfo = v &&& 0x7F
  frame : t.frame.toList = fr

section TransmitRun

variable {s t u : State} {y n : BitVec 16} {p : BitString} {i : StepInput} {env : List StepInput}
  {q q' : FineState} {fs : List (List Byte)} {mosi m : List Byte} {b v : Byte}

theorem TransmitAt.calm (h : TransmitAt s y n p (i :: env) q fs t) (hi : calmInput s.cfg i) :
    calmInput t.cfg i := by rwa [h.cfg]

theorem TransmitAt.env_tail (h : TransmitAt s y n p (i :: env) q fs t) : t.env.tail = env := by
  rw [h.env, List.tail_cons]

/-- R129: the poll is made. -/
theorem TransmitAt.polls (h : TransmitAt s y n p (i :: env) q fs t) (hi : calmInput s.cfg i)
    (hwf : s.cfg.wf = true) (k : PollKind) : polls k t = true :=
  polls_of_calm h.env (h.calm hi) (by rwa [h.cfg]) h.pollCnt k

/-- R132: the step is TXPKT's. -/
theorem TransmitAt.sat_step {P : State → Prop} (h : TransmitAt s y n p (i :: env) q fs t)
    (hi : calmInput s.cfg i) (hbuilt : frameBuilt q = true)
    (hexec : exec (.txpkt y n p) t = .next u) (hp : P (advance u)) : Sat P (step t) := by
  have hrun : t.running = some (.txpkt y n p) := by
    rw [running_of_frameBuilt (by rwa [h.seq]), h.sync16, h.plen, h.payload]
  have hrst := (goodInputs_input (goodInputs_of_calm h.env (h.calm hi))).1
  rw [stepRunsTheRunning t _ hrst hrun, hexec]
  exact hp

/-- A transaction that moves on. -/
theorem TransmitAt.exchanges (h : TransmitAt s y n p (i :: env) q fs t) (hi : calmInput s.cfg i)
    (hbuilt : frameBuilt q = true)
    (hexec : exec (.txpkt y n p) t = .next { afterXfer mosi m t with pollCnt := 0, seq := q' }) :
    Sat (TransmitAt s y n p env q' (mosi :: fs)) (step t) :=
  h.sat_step hi hbuilt hexec
    ⟨h.exchange m rfl rfl rfl rfl, h.env_tail, rfl, h.sync16, h.plen, h.payload, rfl, h.frameLen,
      h.frame⟩

/-- R247 to R257: the step of a row. -/
theorem TransmitAt.sends (h : TransmitAt s y n p (i :: env) q fs t) (hi : calmInput s.cfg i)
    (hrow : TransmitRow s.cfg (frameBytes y p) q mosi q') :
    Sat (TransmitAt s y n p env q' (mosi :: fs)) (step t) := by
  obtain ⟨m, ha⟩ := exists_spiAnswer (goodInputs_of_calm h.env (h.calm hi)) mosi.length
  rw [← h.cfg, ← h.frame] at hrow
  exact h.exchanges hi hrow.frameBuilt_eq (hrow.exec_eq h.seq h.csn h.frameLen h.pollCnt ha)

/-- R249. -/
theorem TransmitAt.findsIdle (h : TransmitAt s y n p (i :: env) .txWaitIdle fs t)
    (hi : calmInput s.cfg i) (hwf : s.cfg.wf = true) (hm : i.spi = .ok [b, v])
    (hv : v &&& 0x1F = 0x01) :
    Sat (TransmitAt s y n p env .txStbSftx ([s.cfg.map.marcstate ||| 0x80, 0x00] :: fs))
      (step t) := by
  obtain ⟨hpoll, -, -⟩ := transmitFlushes t y n p h.csn h.sync16 h.plen h.payload
  have hexec := hpoll b v (spiAnswer_of_ok h.env hm rfl) h.seq (h.polls hi hwf _)
  simp only [if_pos hv, h.cfg] at hexec
  exact h.exchanges hi rfl hexec

/-- R254. -/
theorem TransmitAt.findsDrained (h : TransmitAt s y n p (i :: env) .txPollDrain fs t)
    (hi : calmInput s.cfg i) (hwf : s.cfg.wf = true) (hm : i.spi = .ok [b, v])
    (hv : v &&& 0x7F = 0) :
    Sat (TransmitAt s y n p env .txStbSftx2 ([s.cfg.map.txbytes ||| 0x80, 0x00] :: fs))
      (step t) := by
  obtain ⟨hdrain, -⟩ := transmitDrains t y n p h.csn h.sync16 h.plen h.payload
  obtain ⟨-, -, hpoll⟩ := hdrain h.seq
  have hexec := hpoll b v (spiAnswer_of_ok h.env hm rfl) (h.polls hi hwf _)
  simp only [if_pos hv, h.cfg] at hexec
  exact h.exchanges hi rfl hexec

/-- R131: a delay that moves on. -/
theorem TransmitAt.waits {ms : Nat} (h : TransmitAt s y n p (i :: env) q fs t)
    (hi : calmInput s.cfg i) (hbuilt : frameBuilt q = true)
    (hexec : exec (.txpkt y n p) t = .next { t with seq := q', trace := .delay ms :: t.trace }) :
    Sat (TransmitAt (s.event (.delay ms)) y n p env q' fs) (step t) :=
  h.sat_step hi hbuilt hexec
    ⟨sent_delayed h.toSent rfl rfl rfl rfl, h.env_tail, rfl, h.sync16, h.plen, h.payload,
      h.pollCnt, h.frameLen, h.frame⟩

/-- R251. -/
theorem TransmitAt.settlesBeforeLoad (h : TransmitAt s y n p (i :: env) .txSettle1 fs t)
    (hi : calmInput s.cfg i) :
    Sat (TransmitAt (s.event (.delay 50)) y n p env .txWrbFifo fs) (step t) := by
  obtain ⟨-, -, hexec⟩ := transmitFlushes t y n p h.csn h.sync16 h.plen h.payload
  exact h.waits hi rfl (hexec h.seq)

/-- R258. -/
theorem TransmitAt.settlesBeforeCheck (h : TransmitAt s y n p (i :: env) .txSettle2 fs t)
    (hi : calmInput s.cfg i) :
    Sat (TransmitAt (s.event (.delay 50)) y n p env .txCheck fs) (step t) := by
  obtain ⟨-, hexec, -⟩ := transmitChecks t y n p h.csn h.sync16 h.plen h.payload
  exact h.waits hi rfl (hexec h.seq)

/-- R259: the last read, and either verdict on it. -/
theorem TransmitAt.ends (h : TransmitAt s y n p (i :: env) .txCheck fs t) (hi : calmInput s.cfg i)
    (hm : i.spi = .ok [b, v]) :
    Sat (Checked s (frameBytes y p) v ([s.cfg.map.txbytes ||| 0x80, 0x00] :: fs)) (step t) := by
  obtain ⟨-, -, hread⟩ := transmitChecks t y n p h.csn h.sync16 h.plen h.payload
  obtain ⟨hdrained, hpending⟩ := hread b v (spiAnswer_of_ok h.env hm rfl) h.seq
  rw [← h.cfg]
  have hsent := h.exchange (u := afterXfer [t.cfg.map.txbytes ||| 0x80, 0x00] [b, v] t) [b, v]
    rfl rfl rfl rfl
  by_cases hv : v &&& 0x7F = 0
  · refine h.sat_step hi rfl (hdrained hv)
      { toSent := sent_completed hsent rfl rfl rfl rfl
        seq := rfl
        done := rfl
        txOk := (decide_eq_true hv).symm
        residual := by rw [hv]; rfl
        err := (if_pos hv).symm
        errInfo := hv.symm
        frame := h.frame }
  · refine h.sat_step hi rfl (hpending hv)
      { toSent := sent_completed hsent rfl rfl rfl rfl
        seq := rfl
        done := rfl
        txOk := (decide_eq_false hv).symm
        residual := rfl
        err := (if_neg hv).symm
        errInfo := rfl
        frame := h.frame }

/-- R25, R122: the operands acceptance latches are the command's. -/
theorem txPayload_entered (hlen : p.length = n.toNat) (hle : n.toNat ≤ 496) :
    (entered (.txpkt y n p) s).txPayload = p := by
  have hpbits : (entered (.txpkt y n p) s).txPayload = (overwrite s.pbits p).toList.take n.toNat :=
    rfl
  rw [hpbits, toList_overwrite]
  exact take_overwriteList _ _ _ hlen (by simpa using hle)

/-- R122, R245: the step after acceptance builds the frame. -/
theorem transmitAt_built {i₀ : StepInput} (hc : s.csn = true) (henv : s.env = i₀ :: i :: env)
    (hi : calmInput s.cfg i) (hlen : p.length = n.toNat) (hle : n.toNat ≤ 496)
    (h8 : n.toNat % 8 = 0) :
    Sat (TransmitAt s y n p env .txWrPktlen []) (step (entered (.txpkt y n p) s)) := by
  have hsent := sent_entered (.txpkt y n p) hc
  have hpay := txPayload_entered (s := s) (y := y) hlen hle
  have henv' : (entered (.txpkt y n p) s).env = i :: env := congrArg List.tail henv
  have hrst := (goodInputs_input (goodInputs_of_calm henv' hi)).1
  have hrun : (entered (.txpkt y n p) s).running = some (.txpkt y n p) :=
    congrArg (fun b => some (Instr.txpkt y n b)) hpay
  obtain ⟨hbuild, -⟩ := transmitFrames (entered (.txpkt y n p) s) y n p rfl rfl hpay
  rw [stepRunsTheRunning _ _ hrst hrun, hbuild rfl hle h8]
  refine
    { csn := hsent.csn
      cfg := hsent.cfg
      host := hsent.host
      frames := hsent.frames
      samples := hsent.samples
      delays := hsent.delays
      env := congrArg List.tail henv'
      seq := rfl
      sync16 := rfl
      plen := rfl
      payload := hpay
      pollCnt := rfl
      frameLen := rfl
      frame := ?_ }
  have hframe : (frameBytes y p).length = 64 := length_frameBytes y (by omega) (by omega)
  refine (toList_overwrite ..).trans (overwriteList_of_length_eq _ _ ?_)
  rw [hframe, Vector.length_toList]

end TransmitRun

/-- R247 to R259: the frames of TXPKT on its shortest path, newest first, its own frame being
`fr`. -/
def framesOfTransmit (c : Config) (fr : List Byte) : List (List Byte) :=
  [[c.map.txbytes ||| 0x80, 0x00], [c.map.sfrx, 0x00], [c.map.sftx, 0x00],
   [c.map.txbytes ||| 0x80, 0x00], [c.map.stx, 0x00], (c.map.txfifo ||| 0x40) :: fr,
   [c.map.sftx, 0x00], [c.map.marcstate ||| 0x80, 0x00], [c.map.sidle, 0x00],
   [c.map.pktlen, 0x40]]

/-- R347: nine frames of two bytes and the burst of 65. -/
theorem sum_length_framesOfTransmit (c : Config) {fr : List Byte} (h : fr.length = 64) :
    ((framesOfTransmit c fr).map List.length).sum = 83 := by
  simp [framesOfTransmit, h]

/-- R25: a payload that fits its buffer is as long as PLEN says. -/
theorem length_of_decoded {c : Record} {y n : BitVec 16} {p : BitString}
    (h : decode c = .ok (.txpkt y n p)) (hle : n.toNat ≤ 496) : p.length = n.toNat := by
  have hfit : p.length = min n.toNat 496 := by
    simpa [Instr.wellFormed, pbitsFit] using (decode_eq_ok_iff.mp h).wellFormed
  omega

/-- Settles O59: the accepting step, and then the thirteen steps of the shortest path. -/
theorem transmitRunsToCompletion : Obligations.TransmitRunsToCompletion := by
  intro s c rest y n p i0 i1 i2 i3 i4 i5 i6 i7 i8 i9 i10 i11 i12 i13 more b4 v4 b9 v9 b13 v13
    hq hc hhost hdec hwf hle h8 henv hcalm hm4 hv4 hm9 hv9 hm13
  simp only [List.forall_mem_cons] at hcalm
  obtain ⟨c0, c1, c2, c3, c4, c5, c6, c7, c8, c9, c10, c11, c12, c13, -⟩ := hcalm
  have hrst := (goodInputs_input (goodInputs_of_calm henv c0)).1
  have hlen := length_of_decoded hdec hle
  have hstep := step_of_admitted hrst hq hhost hdec (checkPayload_eq_none.mpr ⟨hle, h8⟩)
  have hbuilt :=
    transmitAt_built (s := { s with host := rest }) (y := y) hc henv c1 hlen hle h8
  have hrun := runSteps_sat hbuilt fun _ h =>
    runSteps_sat (h.sends c2 .wrPktlen) fun _ h =>
    runSteps_sat (h.sends c3 .stbSidle) fun _ h =>
    runSteps_sat (h.findsIdle c4 hwf hm4 hv4) fun _ h =>
    runSteps_sat (h.sends c5 .stbSftx) fun _ h =>
    runSteps_sat (h.settlesBeforeLoad c6) fun _ h =>
    runSteps_sat (h.sends c7 .wrbFifo) fun _ h =>
    runSteps_sat (h.sends c8 .stbStx) fun _ h =>
    runSteps_sat (h.findsDrained c9 hwf hm9 hv9) fun _ h =>
    runSteps_sat (h.sends c10 .stbSftx2) fun _ h =>
    runSteps_sat (h.sends c11 .stbSfrx) fun _ h =>
    runSteps_sat (h.settlesBeforeCheck c12) fun _ h =>
    runSteps_sat (n := 0) (h.ends c13 hm13) fun _ h => h
  obtain ⟨t, hrun, hchecked⟩ := hrun.exists_next
  have hframes : sentFrames t.trace =
      framesOfTransmit s.cfg (frameBytes y p) ++ sentFrames s.trace := hchecked.frames
  refine ⟨t, by rw [runSteps, hstep]; exact hrun, hchecked.seq, hchecked.done, hchecked.host,
    hchecked.txOk, hchecked.residual, hchecked.err, hchecked.errInfo, hchecked.frame, hframes,
    ?_, ?_, ?_, ?_⟩
  · rw [transactionCount, hframes, List.length_append]
    exact Nat.add_comm ..
  · have hframe : (frameBytes y p).length = 64 := length_frameBytes y (by omega) (by omega)
    rw [byteCount, hframes, List.map_append, List.sum_append, sum_length_framesOfTransmit _ hframe]
    exact Nat.add_comm ..
  · have hsamples := hchecked.samples
    simp only [event_trace, sampleCount_cons, Event.samples] at hsamples
    omega
  · have hdelays := hchecked.delays
    simp only [event_trace, delayTotal_cons, Event.delayMs] at hdelays
    omega

end Sys2Proof.Transmit
end

section
/-! SUPPORT and proofs for 60_exceptions.md. `exec_eq_pollStep_of_wait` says once that the step of
every wait state but TX_BACKOFF is a poll of its own kind (R129); `idleStep_of_reserved` that a
reserved opcode is completed in the step that takes it (R282). -/

namespace Sys2Proof.Exceptions

open Sys2Proof.Machine Sys2Proof.Laws Sys2Proof.Safety
open Sys2Proof.Registers Sys2Proof.Encoding Sys2Proof.Receive Sys2Proof.Transmit

/-! ### The wait states -/

/-- R129: the step of each wait state is a poll of the state's kind, whatever is polled and wherever
the poll leads; TX_BACKOFF, which lies in the drain loop, only delays. -/
theorem exec_eq_pollStep_of_wait {s : State} {i : Instr} {k : PollKind} (hrun : s.running = some i)
    (hloop : loopOf s.seq = some k) (hback : s.seq ≠ .txBackoff) :
    ∃ (α : Type) (poll : (α → State → Out) → State → Out) (sat : α → Bool) (next stay : FineState),
      exec i s = pollStep k poll sat next stay s := by
  simp only [loopOf_eq_some_iff, List.mem_cons, Prod.mk.injEq, List.not_mem_nil, or_false, hback,
    false_and] at hloop
  rcases hloop with ⟨hq, rfl⟩ | ⟨hq, rfl⟩ | ⟨hq, rfl⟩ | ⟨hq, rfl⟩ | ⟨hq, rfl⟩
  all_goals
    simp only [State.running, hq, Option.some.injEq] at hrun
    subst hrun
    simp only [exec, execRxpkt, execTxpkt, hq]
    exact ⟨_, _, _, _, _, rfl⟩

/-- R129: a finite limit is reached once the count is no longer below it. -/
theorem limitReached_of_le {l : PollLimit} {n count : Nat} (hl : l = .polls n) (hle : n ≤ count) :
    limitReached l count = true := by
  subst hl
  exact decide_eq_true hle

/-- Settles O42: in the order of R294, the abort before the limit. -/
theorem waitsCancelAndTimeOut : Obligations.WaitsCancelAndTimeOut := by
  intro s i k hrun hloop hback
  obtain ⟨α, poll, sat, next, stay, hexec⟩ := exec_eq_pollStep_of_wait hrun hloop hback
  rw [hexec]
  refine ⟨fun habort hreq => ?_, fun hno n hlim hle => ?_⟩
  · exact pollStep_cancel (abortRequested_iff.mpr ⟨habort, hreq⟩)
  · have hnot : s.abortRequested = false := Bool.eq_false_iff.mpr (mt abortRequested_iff.mp hno)
    exact pollStep_timeout hnot (limitReached_of_le hlim hle)

/-! ### Reserved opcodes -/

/-- R98, R282: in IDLE a presented reserved opcode is taken from the port and completed at once. -/
theorem idleStep_of_reserved {s : State} {c : Record} {rest : List (Option Record)} {op : Byte}
    (hhost : s.host = some c :: rest) (hdec : decode c = .error (.reservedOp op)) :
    idleStep s = .next (acceptReserved op { s with host := rest }) := by
  rw [idleStep, hhost]
  simp only [hdec]

/-- R122, R124, R290: accepted and completed in IDLE, a reserved opcode leaves its code in OP and
in ERRINFO, and IDLE's code in ERRSEQ. -/
theorem acceptReserved_eq {s : State} (op : Byte) (hq : s.seq = .idle) :
    acceptReserved op s =
      { s with
        op := op
        done := true
        err := .illegal
        errInfo := op
        errSeq := 0
        pollCnt := 0
        trace := .done .illegal op :: .acceptReserved op :: s.trace } := by
  obtain ⟨s, rfl⟩ := Sequencer.exists_with_seq hq
  rfl

/-- Settles O11: the two events added are the acceptance and the completion, which are no frame, no
sample and no delay. -/
theorem reservedOpcodeCompletes : Obligations.ReservedOpcodeCompletes := by
  intro s c rest hrst hq hhost hop
  obtain ⟨-, -, hreserved⟩ := decodesExactlyTheTenOpcodes c
  have hidle := idleStep_of_reserved hhost (hreserved hop)
  rw [acceptReserved_eq c.op (s := { s with host := rest }) hq] at hidle
  rw [step_of_idle hrst hq, hidle]
  refine ⟨_, rfl, rfl, rfl, rfl, rfl, ?_, ?_⟩
  · simp [advance, sampleCount_cons, Event.samples]
  · simp [advance, delayTotal_cons, Event.delayMs]

end Sys2Proof.Exceptions
end

section
/-! Proof for 70_reset_and_hazards.md: a step with `rst` is one branch of the step (`step_of_rst`),
which reads nothing of the block's own registers. -/

namespace Sys2Proof.Reset

open Sys2Proof.Machine Sys2Proof.Laws Sys2Proof.Registers

/-- Settles O14: the registers after `rst` are those of the reset state, whose values O1 gives; the
parameters, the port and the events so far are the ones before the step. -/
theorem resetAtAnyStep : Obligations.ResetAtAnyStep := by
  intro s hrst
  obtain ⟨hseq, hcsn, hpoll, hbusy, hdone, herr, hinfo, herrSeq, htxOk⟩ := resetStateValues
  have houtside : (advance (onReset s)).trace = s.trace ∧ (advance (onReset s)).cfg = s.cfg ∧
      (advance (onReset s)).host = s.host := ⟨rfl, rfl, rfl⟩
  exact ⟨_, step_of_rst hrst, hseq, hcsn, hpoll, hbusy, hdone, herr, hinfo, herrSeq, htxOk,
    houtside⟩

end Sys2Proof.Reset
end

section
/-! SUPPORT and proofs for the record's byte layout (30_encoding.md R97, log 11) and for the port
`withFetchWord` fills (40_sequencer_control.md R120 to R122, log 12). `bytesOfRecord_split` says
where each part of a record stands; `recordOfBytes` finds it there. -/

namespace Sys2Proof.Carriage

open Sys2Proof.Machine Sys2Proof.Laws Sys2Proof.Scope Sys2Proof.Encoding Sys2Proof.Sequencer

/-! ### Where the parts of a record stand in its bytes -/

/-- FREQW, SYNC16 and PLEN, high byte first: bytes 69 to 75 of the layout. -/
def wideFieldBytes (c : Record) : List Byte :=
  [c.freqw.extractLsb' 16 8, c.freqw.extractLsb' 8 8, c.freqw.extractLsb' 0 8,
   c.sync16.extractLsb' 8 8, c.sync16.extractLsb' 0 8,
   c.plen.extractLsb' 8 8, c.plen.extractLsb' 0 8]

theorem bytesOfRecord_split (c : Record) :
    bytesOfRecord c = [c.op, c.addr, c.val, c.len, c.wlen] ++
      (c.wbuf.toList ++ (wideFieldBytes c ++ pack c.pbits.toList)) := by
  simp only [bytesOfRecord, wideFieldBytes, List.append_assoc]

/-- 496 bits are 62 whole bytes. -/
theorem length_pack_pbits (c : Record) : (pack c.pbits.toList).length = 62 :=
  length_pack 62 _ Vector.length_toList

theorem length_bytesOfRecord (c : Record) : (bytesOfRecord c).length = recordBytes := by
  simp [bytesOfRecord_split, wideFieldBytes, length_pack_pbits, recordBytes]

theorem drop_wbuf (c : Record) :
    (bytesOfRecord c).drop 5 = c.wbuf.toList ++ (wideFieldBytes c ++ pack c.pbits.toList) := by
  rw [bytesOfRecord_split]; rfl

theorem drop_wideFields (c : Record) :
    (bytesOfRecord c).drop 69 = wideFieldBytes c ++ pack c.pbits.toList := by
  rw [show 69 = 5 + 64 from rfl, ← List.drop_drop, drop_wbuf]
  exact List.drop_left' Vector.length_toList

theorem drop_pbits (c : Record) : (bytesOfRecord c).drop 76 = pack c.pbits.toList := by
  rw [show 76 = 69 + 7 from rfl, ← List.drop_drop, drop_wideFields]
  rfl

/-- The bytes from 69 on are those of the wide fields. -/
theorem getD_wideFields (c : Record) (k : Nat) :
    (bytesOfRecord c).getD (69 + k) 0 =
      (wideFieldBytes c ++ pack c.pbits.toList).getD k 0 := by
  rw [← drop_wideFields, List.getD_eq_getElem?_getD, List.getD_eq_getElem?_getD,
    List.getElem?_drop]

/-! ### Each field read back -/

section Fields
variable (c : Record)

theorem wbuf_of_bytes : (recordOfBytes (bytesOfRecord c)).wbuf = c.wbuf := by
  have hwbuf : (recordOfBytes (bytesOfRecord c)).wbuf =
      bufferOf 0 64 ((bytesOfRecord c).drop 5) := rfl
  rw [hwbuf, drop_wbuf]
  exact bufferOf_toList_append _ _

theorem freqw_of_bytes : (recordOfBytes (bytesOfRecord c)).freqw = c.freqw := by
  have hfreqw : (recordOfBytes (bytesOfRecord c)).freqw =
      (bytesOfRecord c).getD (69 + 0) 0 ++ (bytesOfRecord c).getD (69 + 1) 0 ++
        (bytesOfRecord c).getD (69 + 2) 0 := rfl
  rw [hfreqw, getD_wideFields, getD_wideFields, getD_wideFields]
  exact bytes_of_24 c.freqw

theorem sync16_of_bytes : (recordOfBytes (bytesOfRecord c)).sync16 = c.sync16 := by
  have hsync16 : (recordOfBytes (bytesOfRecord c)).sync16 =
      (bytesOfRecord c).getD (69 + 3) 0 ++ (bytesOfRecord c).getD (69 + 4) 0 := rfl
  rw [hsync16, getD_wideFields, getD_wideFields]
  exact bytes_of_16 c.sync16

theorem plen_of_bytes : (recordOfBytes (bytesOfRecord c)).plen = c.plen := by
  have hplen : (recordOfBytes (bytesOfRecord c)).plen =
      (bytesOfRecord c).getD (69 + 5) 0 ++ (bytesOfRecord c).getD (69 + 6) 0 := rfl
  rw [hplen, getD_wideFields, getD_wideFields]
  exact bytes_of_16 c.plen

theorem pbits_of_bytes : (recordOfBytes (bytesOfRecord c)).pbits = c.pbits := by
  have hpbits : (recordOfBytes (bytesOfRecord c)).pbits =
      bufferOf false 496 (unpack ((bytesOfRecord c).drop 76)) := rfl
  have hunpack : unpack (pack c.pbits.toList) = c.pbits.toList ++ [] := by
    rw [List.append_nil]
    exact unpack_pack 62 _ Vector.length_toList
  rw [hpbits, drop_pbits, hunpack]
  exact bufferOf_toList_append _ _

/-- The five one-byte fields come first, and the others are read back field by field. -/
theorem recordOfBytes_bytesOfRecord : recordOfBytes (bytesOfRecord c) = c :=
  calc recordOfBytes (bytesOfRecord c)
    _ = { c with
          wbuf := (recordOfBytes (bytesOfRecord c)).wbuf
          freqw := (recordOfBytes (bytesOfRecord c)).freqw
          sync16 := (recordOfBytes (bytesOfRecord c)).sync16
          plen := (recordOfBytes (bytesOfRecord c)).plen
          pbits := (recordOfBytes (bytesOfRecord c)).pbits } := rfl
    _ = c := by
      rw [wbuf_of_bytes, freqw_of_bytes, sync16_of_bytes, plen_of_bytes, pbits_of_bytes]

end Fields

/-- Settles O4: every field is read back from its place, so decoding the bytes of a command is
decoding its record (O3). -/
theorem recordSurvivesItsBytes : Obligations.RecordSurvivesItsBytes := by
  refine ⟨fun c => ⟨length_bytesOfRecord c, recordOfBytes_bytesOfRecord c⟩, fun i hi => ?_⟩
  rw [decodeBytes, encodeBytes, recordOfBytes_bytesOfRecord]
  exact decodeOfEncode i hi

/-! ### The word at the port -/

theorem decode_of_decodeTableWord {nbits w : Nat} {i : Instr}
    (h : decodeTableWord nbits w = some i) :
    decode (recordOfBytes (bytesOfTableWord nbits w)) = .ok i := by
  unfold decodeTableWord at h
  split at h
  next hdec =>
    cases h
    exact hdec
  next => cases h

/-- Past the script's end there is no reset anyway (log 5). -/
theorem input_rst_presentRecord (c : Record) (s : State) :
    (presentRecord c s).input.rst = false := by
  unfold State.input presentRecord
  cases s.env <;> rfl

/-- Settles O9: the placed state meets what a step needs to accept the presented command (O7). -/
theorem fetchWordRunsNext : Obligations.FetchWordRunsNext := by
  intro s nbits w i h
  exact stepAcceptsThePresented _ _ s.host i (input_rst_presentRecord _ s) rfl rfl
    (decode_of_decodeTableWord h)

end Sys2Proof.Carriage
end
